-- ==== Sys2Proof/Word.lean ====
section
/-! DEFINITION. The two word types of the block: memory is addressed in bytes (spec/20_memory.md R40, R44) and the register
port and the command word are 32 bits wide (spec/10_state.md R13, spec/30_encoding.md R70). -/

namespace Sys2Proof

/-- One byte of SRC or DST, one colour component, one packed byte. -/
abbrev Byte := BitVec 8

/-- The data of the register port, and a command word. -/
abbrev Word := BitVec 32

end Sys2Proof
end

