-- ==== Sys2Proof/Config.lean ====
section
/-! DEFINITION. What an implementation fixes and the free values: the open parameters of spec/00_scope.md R6 with the
constraints the spec puts on them, and the contents of SRC and DST after power-on (spec/70_reset_and_hazards.md R201). -/

namespace Sys2Proof.Config

/-- One entry of the colour table: `CTAB[i] = (r, g, b, hw)` (R90). Its firmware index is its position, which is not stored. -/
structure ColorEntry where
  r : Byte
  g : Byte
  b : Byte
  hw : Byte
  deriving DecidableEq, Repr, Inhabited

/-- The RGB triple of an entry (R90). -/
def ColorEntry.rgb (e : ColorEntry) : Byte × Byte × Byte := (e.r, e.g, e.b)

/-- `MODE0_POS[off]`: where the four colour bits of a Mode0 pixel go in the byte (R113). -/
structure Mode0Row where
  p0 : Fin 8
  p1 : Fin 8
  p2 : Fin 8
  p3 : Fin 8
  deriving DecidableEq, Repr, Inhabited

/-- The four positions, colour bit 0 first. -/
def Mode0Row.toList (q : Mode0Row) : List (Fin 8) := [q.p0, q.p1, q.p2, q.p3]

/-- R113(b): at least one position in the upper nibble and one in the lower. -/
abbrev Mode0Row.AcrossNibbles (q : Mode0Row) : Prop :=
  (∃ p ∈ q.toList, 4 ≤ p.val) ∧ (∃ p ∈ q.toList, p.val < 4)

/-- The open parameters of R6. Log 1 says why they are plain data. -/
structure Params where
  /-- COLOR_TABLE, the contents of CTAB: 27 entries (R92a by the type). -/
  colorTable : Vector ColorEntry 27
  /-- `MODE0_POS[0]` (R113). -/
  mode0Off0 : Mode0Row
  /-- `MODE0_POS[1]` (R113). -/
  mode0Off1 : Mode0Row
  /-- SUBROW_STRIDE, the "fixed per-line stride" (R157). -/
  subrowStride : Nat
  /-- BYTES_PER_CHAR, 1 or 2 (R157). -/
  bytesPerChar : Nat
  /-- SRC_SIZE (R40). -/
  srcSize : Nat
  /-- DST_SIZE (R40). -/
  dstSize : Nat
  deriving DecidableEq, Repr, Inhabited

/-- What the spec demands of the parameters: R92(b), R92(c), R113(a), R113(b), R157, and R16's "every DST_SIZE up to 2^32"
(log 2). -/
abbrev Params.Valid (p : Params) : Prop :=
  (p.colorTable.toList.map ColorEntry.rgb).Nodup ∧
  (p.colorTable.toList.map ColorEntry.hw).Nodup ∧
  (p.mode0Off0.toList ++ p.mode0Off1.toList).Nodup ∧
  p.mode0Off0.AcrossNibbles ∧ p.mode0Off1.AcrossNibbles ∧
  (p.bytesPerChar = 1 ∨ p.bytesPerChar = 2) ∧
  p.dstSize ≤ 2 ^ 32

/-- The candidate colour table G1 of spec/93_implementation_defined.md, PRESUMED: from general knowledge, not in the source.
For tests, and as the parameter set `params` falls back to (log 3). -/
def candidateTable : Vector ColorEntry 27 :=
  #v[⟨0x00, 0x00, 0x00, 0x54⟩, ⟨0x00, 0x00, 0x80, 0x44⟩, ⟨0x00, 0x00, 0xFF, 0x55⟩,
     ⟨0x80, 0x00, 0x00, 0x5C⟩, ⟨0x80, 0x00, 0x80, 0x58⟩, ⟨0x80, 0x00, 0xFF, 0x5D⟩,
     ⟨0xFF, 0x00, 0x00, 0x4C⟩, ⟨0xFF, 0x00, 0x80, 0x45⟩, ⟨0xFF, 0x00, 0xFF, 0x4D⟩,
     ⟨0x00, 0x80, 0x00, 0x56⟩, ⟨0x00, 0x80, 0x80, 0x46⟩, ⟨0x00, 0x80, 0xFF, 0x57⟩,
     ⟨0x80, 0x80, 0x00, 0x5E⟩, ⟨0x80, 0x80, 0x80, 0x40⟩, ⟨0x80, 0x80, 0xFF, 0x5F⟩,
     ⟨0xFF, 0x80, 0x00, 0x4E⟩, ⟨0xFF, 0x80, 0x80, 0x47⟩, ⟨0xFF, 0x80, 0xFF, 0x4F⟩,
     ⟨0x00, 0xFF, 0x00, 0x52⟩, ⟨0x00, 0xFF, 0x80, 0x42⟩, ⟨0x00, 0xFF, 0xFF, 0x53⟩,
     ⟨0x80, 0xFF, 0x00, 0x5A⟩, ⟨0x80, 0xFF, 0x80, 0x59⟩, ⟨0x80, 0xFF, 0xFF, 0x5B⟩,
     ⟨0xFF, 0xFF, 0x00, 0x4A⟩, ⟨0xFF, 0xFF, 0x80, 0x43⟩, ⟨0xFF, 0xFF, 0xFF, 0x4B⟩]

/-- The defaults of R6 with the candidates G1, G2 and G4. PRESUMED (log 3). -/
def candidate : Params where
  colorTable := candidateTable
  mode0Off0 := ⟨7, 3, 5, 1⟩
  mode0Off1 := ⟨6, 2, 4, 0⟩
  subrowStride := 2048
  bytesPerChar := 2
  srcSize := 65536
  dstSize := 65536

/-- The candidate meets every constraint (R92, R113, R157). -/
theorem candidate_valid : candidate.Valid := by decide

/-- The implementation's parameter set before the spec's constraints are put on it: nothing is known of it (log 3). -/
opaque openParams : Params

/-- The parameters of the machine after power-on: ANY set that meets R92, R113 and R157 (log 3). `openParams` has no body, so
no value of any parameter can be proved. -/
def params : Params := if openParams.Valid then openParams else candidate

/-- Whatever the implementation chose, it meets the spec's constraints. -/
theorem params_valid : params.Valid := by
  unfold params
  split
  · assumption
  · exact candidate_valid

/-- The two byte memories (R40). -/
inductive Space where
  | src
  | dst
  deriving DecidableEq, Repr

/-- What a byte of SRC or DST that nothing has written since power-on holds: "each byte holds some value the spec does not
fix" (R201). A free value (log 4). -/
opaque powerOnByte : Space → Nat → Byte

end Sys2Proof.Config
end

