-- ==== Sys2Proof/Syntax.lean ====
section
/-! DEFINITION. The fourteen commands of spec/30_encoding.md R75, one constructor per row of spec/opcode_table.json, and the
host's transactions of spec/44_system.md R172. -/

namespace Sys2Proof

/-- The three modes (spec/00_scope.md R4). -/
inductive Mode where
  | mode0
  | mode1
  | mode2
  deriving DecidableEq, Repr

/-- The MODE field of a command that takes a mode (R71): 0, 1, 2, and 3 = no mode, a legal encoding (R76). -/
inductive ModeField where
  | m0
  | m1
  | m2
  | m3
  deriving DecidableEq, Repr

/-- A command. Operands are the unsigned fields of R72 and R73, used as natural numbers (R72); their widths are checked in
WellFormed.lean. Operands stand in the order of the fields from bit 31 down, the mode first. -/
inductive Instr where
  /-- NOP (R170). -/
  | nop
  /-- HWCODE r, g, b (R94). -/
  | hwcode (r g b : Nat)
  /-- FWIDX r, g, b (R95). -/
  | fwidx (r g b : Nat)
  /-- RGBOF i (R96). -/
  | rgbof (i : Nat)
  /-- PALCONV (R98). -/
  | palconv
  /-- ENC.Mn c, off (R114). -/
  | enc (mode : ModeField) (off c : Nat)
  /-- DEC.Mn b, off (R115). -/
  | dec (mode : ModeField) (off b : Nat)
  /-- MASK.Mn off (R116). -/
  | mask (mode : ModeField) (off : Nat)
  /-- SHIFT.Mn off (R117). -/
  | shift (mode : ModeField) (off : Nat)
  /-- PPB.Mn (R118). -/
  | ppb (mode : ModeField)
  /-- SPRITE.Mn im, io, oobm, t (R131). FLAT.Mn is `sprite mode 0 false false false` (R79). -/
  | sprite (mode : ModeField) (t : Nat) (oobm io im : Bool)
  /-- ROWADDR y (R160). -/
  | rowaddr (y : Nat)
  /-- ATSIZE (R161). -/
  | atsize
  /-- SCREEN.Mn (R162). -/
  | screen (mode : ModeField)
  deriving DecidableEq, Repr

/-- The registers behind the register port, as the map of spec/10_state.md R13 names them. -/
inductive Reg where
  | cmd
  | status
  | res
  | len
  | imgW
  | imgH
  | palCount
  | crtcR0
  | crtcR1
  | crtcR6
  | crtcR9
  | crtcR12
  | crtcR13
  | palRgb (i : Fin 16)
  | palHw (i : Fin 16)
  | palFw (i : Fin 16)
  /-- A number the map does not name. -/
  | reserved
  deriving DecidableEq, Repr

/-- A host transaction (R172), in the written forms of R78. -/
inductive HostTxn where
  /-- `WR reg, value`: 6-bit register number, 32-bit data (R13). -/
  | writeReg (number : BitVec 6) (value : Word)
  /-- `RD reg`. -/
  | readReg (number : BitVec 6)
  /-- `WSRC addr, byte`. -/
  | writeSrc (addr : Nat) (value : Byte)
  /-- `RSRC addr`. -/
  | readSrc (addr : Nat)
  /-- `WDST addr, byte`. -/
  | writeDst (addr : Nat) (value : Byte)
  /-- `RDST addr`. -/
  | readDst (addr : Nat)
  /-- `RESET` (R200). -/
  | reset
  deriving DecidableEq, Repr

end Sys2Proof
end

