-- ==== Sys2Proof/WellFormed.lean ====
section
/-! DEFINITION. When a command's operands fit their fields (spec/30_encoding.md R72, R73). Fields are wider than the valid
ranges on purpose (R72): an operand that fits its field and is out of range is well formed, and its command raises
OutOfRange (R76). -/

namespace Sys2Proof

/-- An 8-bit operand field: r, g, b, i, off, c (R72). -/
abbrev FitsByte (n : Nat) : Prop := n < 2 ^ 8

/-- The operands of the command fit the fields of R72 and R73. -/
def Instr.WellFormed : Instr → Bool
  | .nop => true
  | .hwcode r g b => decide (FitsByte r ∧ FitsByte g ∧ FitsByte b)
  | .fwidx r g b => decide (FitsByte r ∧ FitsByte g ∧ FitsByte b)
  | .rgbof i => decide (FitsByte i)
  | .palconv => true
  | .enc _ off c => decide (FitsByte off ∧ FitsByte c)
  | .dec _ off b => decide (FitsByte off ∧ FitsByte b)
  | .mask _ off => decide (FitsByte off)
  | .shift _ off => decide (FitsByte off)
  | .ppb _ => true
  | .sprite _ t _ _ _ => decide (t < 2 ^ 4)
  | .rowaddr y => decide (y < 2 ^ 16)
  | .atsize => true
  | .screen _ => true

end Sys2Proof
end

