-- ==== Sys2Proof/Decode.lean ====
section
/-! DEFINITION. The command word: its fields (spec/30_encoding.md R71), the total decoder with the reserved encodings refused
by name (R75, R76), and the encoder written from the same tables (R72, R73, R78). -/

namespace Sys2Proof

/-- `w[lo + len - 1 : lo]` as a natural number (spec/00_scope.md R7). -/
def field (w : Word) (lo len : Nat) : Nat := w.toNat / 2 ^ lo % 2 ^ len

/-- OP, bits [31:28] (R71). -/
def opField (w : Word) : Nat := field w 28 4

/-- MODE, bits [27:26] (R71). -/
def modeNumberField (w : Word) : Nat := field w 26 2

/-- RSV, bits [25:24] (R71). -/
def rsvField (w : Word) : Nat := field w 24 2

/-- ARG, bits [23:0] (R71). -/
def argField (w : Word) : Nat := field w 0 24

/-- MODE as an operand: 0, 1, 2, 3 (R71). -/
def ModeField.ofNumber : Nat → ModeField
  | 0 => .m0
  | 1 => .m1
  | 2 => .m2
  | _ => .m3

/-- The number of a MODE operand (R71). -/
def ModeField.number : ModeField → Nat
  | .m0 => 0
  | .m1 => 1
  | .m2 => 2
  | .m3 => 3

/-- Why a word matches no row of R75 (R76). The spec has one fault for all four, IllegalCommand; the names are the model's
(log 9). -/
inductive DecodeError where
  /-- OP is 0xE or 0xF (R171). -/
  | reservedOp
  /-- RSV is not 0. -/
  | rsvNotZero
  /-- MODE is not 0 in a command that takes no mode. -/
  | modeNotZero
  /-- A must-be-zero bit of ARG is 1. -/
  | argNotZero
  deriving DecidableEq, Repr

/-- A command that takes no mode: MODE must be 0 (R71, R76). -/
def modeless (w : Word) (r : Except DecodeError Instr) : Except DecodeError Instr :=
  if modeNumberField w = 0 then r else .error .modeNotZero

/-- The `len` bits of ARG from bit `lo` must be 0 (R72, R73, R76). -/
def mustBeZero (w : Word) (lo len : Nat) (r : Except DecodeError Instr) : Except DecodeError Instr :=
  if field w lo len = 0 then r else .error .argNotZero

/-- One bit of ARG as an option of SPRITE (R73). -/
def flagField (w : Word) (lo : Nat) : Bool := decide (field w lo 1 = 1)

/-- The decoder: every word is one command or is refused by name (R75, R76). -/
def decode (w : Word) : Except DecodeError Instr :=
  if rsvField w ≠ 0 then .error .rsvNotZero
  else
    match opField w with
    | 0x0 => modeless w (mustBeZero w 0 24 (.ok .nop))
    | 0x1 => modeless w (.ok (.hwcode (field w 16 8) (field w 8 8) (field w 0 8)))
    | 0x2 => modeless w (.ok (.fwidx (field w 16 8) (field w 8 8) (field w 0 8)))
    | 0x3 => modeless w (mustBeZero w 8 16 (.ok (.rgbof (field w 0 8))))
    | 0x4 => modeless w (mustBeZero w 0 24 (.ok .palconv))
    | 0x5 => mustBeZero w 16 8 (.ok (.enc (.ofNumber (modeNumberField w)) (field w 8 8) (field w 0 8)))
    | 0x6 => mustBeZero w 16 8 (.ok (.dec (.ofNumber (modeNumberField w)) (field w 8 8) (field w 0 8)))
    | 0x7 => mustBeZero w 16 8 (mustBeZero w 0 8 (.ok (.mask (.ofNumber (modeNumberField w)) (field w 8 8))))
    | 0x8 => mustBeZero w 16 8 (mustBeZero w 0 8 (.ok (.shift (.ofNumber (modeNumberField w)) (field w 8 8))))
    | 0x9 => mustBeZero w 0 24 (.ok (.ppb (.ofNumber (modeNumberField w))))
    | 0xA => mustBeZero w 8 16 (mustBeZero w 3 1
        (.ok (.sprite (.ofNumber (modeNumberField w)) (field w 4 4) (flagField w 2) (flagField w 1) (flagField w 0))))
    | 0xB => modeless w (mustBeZero w 16 8 (.ok (.rowaddr (field w 0 16))))
    | 0xC => modeless w (mustBeZero w 0 24 (.ok .atsize))
    | 0xD => mustBeZero w 0 24 (.ok (.screen (.ofNumber (modeNumberField w))))
    | _ => .error .reservedOp

/-- The OP of a command (R75). -/
def Instr.opcode : Instr → Nat
  | .nop => 0x0
  | .hwcode _ _ _ => 0x1
  | .fwidx _ _ _ => 0x2
  | .rgbof _ => 0x3
  | .palconv => 0x4
  | .enc _ _ _ => 0x5
  | .dec _ _ _ => 0x6
  | .mask _ _ => 0x7
  | .shift _ _ => 0x8
  | .ppb _ => 0x9
  | .sprite _ _ _ _ _ => 0xA
  | .rowaddr _ => 0xB
  | .atsize => 0xC
  | .screen _ => 0xD

/-- The MODE field of a command: its mode operand, or 0 where it takes none (R71). -/
def Instr.modeNumber : Instr → Nat
  | .nop => 0
  | .hwcode _ _ _ => 0
  | .fwidx _ _ _ => 0
  | .rgbof _ => 0
  | .palconv => 0
  | .enc m _ _ => m.number
  | .dec m _ _ => m.number
  | .mask m _ => m.number
  | .shift m _ => m.number
  | .ppb m => m.number
  | .sprite m _ _ _ _ => m.number
  | .rowaddr _ => 0
  | .atsize => 0
  | .screen m => m.number

/-- The ARG field of a command (R72, R73). -/
def Instr.arg : Instr → Nat
  | .nop => 0
  | .hwcode r g b => r * 2 ^ 16 + g * 2 ^ 8 + b
  | .fwidx r g b => r * 2 ^ 16 + g * 2 ^ 8 + b
  | .rgbof i => i
  | .palconv => 0
  | .enc _ off c => off * 2 ^ 8 + c
  | .dec _ off b => off * 2 ^ 8 + b
  | .mask _ off => off * 2 ^ 8
  | .shift _ off => off * 2 ^ 8
  | .ppb _ => 0
  | .sprite _ t oobm io im => t * 2 ^ 4 + oobm.toNat * 2 ^ 2 + io.toNat * 2 + im.toNat
  | .rowaddr y => y
  | .atsize => 0
  | .screen _ => 0

/-- The word of a command (R71, R78). For a command that is not well formed the fields run into one another. -/
def encode (i : Instr) : Word := BitVec.ofNat 32 (i.opcode * 2 ^ 28 + i.modeNumber * 2 ^ 26 + i.arg)

/-- The mnemonic of a command, as spec/opcode_table.json writes it (R75). -/
def Instr.mnemonic : Instr → String
  | .nop => "NOP"
  | .hwcode _ _ _ => "HWCODE"
  | .fwidx _ _ _ => "FWIDX"
  | .rgbof _ => "RGBOF"
  | .palconv => "PALCONV"
  | .enc _ _ _ => "ENC"
  | .dec _ _ _ => "DEC"
  | .mask _ _ => "MASK"
  | .shift _ _ => "SHIFT"
  | .ppb _ => "PPB"
  | .sprite _ _ _ _ _ => "SPRITE"
  | .rowaddr _ => "ROWADDR"
  | .atsize => "ATSIZE"
  | .screen _ => "SCREEN"

/-- A row of the opcode map: "a word `w` is the command when `w & mask = match`" (R75). -/
structure OpcodeRow where
  mnemonic : String
  pattern : Word
  mask : Word
  deriving DecidableEq, Repr

/-- The opcode map of R75. The decoder does not read it: it is the spec's own second way of saying which words are which
command, and the model's statements compare the two. -/
def opcodeTable : List OpcodeRow :=
  [⟨"NOP", 0x00000000, 0xFFFFFFFF⟩,
   ⟨"HWCODE", 0x10000000, 0xFF000000⟩,
   ⟨"FWIDX", 0x20000000, 0xFF000000⟩,
   ⟨"RGBOF", 0x30000000, 0xFFFFFF00⟩,
   ⟨"PALCONV", 0x40000000, 0xFFFFFFFF⟩,
   ⟨"ENC", 0x50000000, 0xF3FF0000⟩,
   ⟨"DEC", 0x60000000, 0xF3FF0000⟩,
   ⟨"MASK", 0x70000000, 0xF3FF00FF⟩,
   ⟨"SHIFT", 0x80000000, 0xF3FF00FF⟩,
   ⟨"PPB", 0x90000000, 0xF3FFFFFF⟩,
   ⟨"SPRITE", 0xA0000000, 0xF3FFFF08⟩,
   ⟨"ROWADDR", 0xB0000000, 0xFFFF0000⟩,
   ⟨"ATSIZE", 0xC0000000, 0xFFFFFFFF⟩,
   ⟨"SCREEN", 0xD0000000, 0xF3FFFFFF⟩]

/-- The 32-bit command word of the bits `w` of which `nbits` are given, the others 0. -/
def tableWord (nbits w : Nat) : Word := BitVec.ofNat 32 (w % 2 ^ nbits)

/-- The command the decoder reads from an instruction whose bits are `w`. There is one instruction length, 32 bits, so the
bits need no laying out (R70, R77). -/
def decodeTableWord (nbits w : Nat) : Option Instr :=
  match decode (tableWord nbits w) with
  | .ok i => some i
  | .error _ => none

end Sys2Proof
end

