-- ==== Sys2Proof/Machine/State.lean ====
section
/-! DEFINITION. The whole state of the block (spec/10_state.md R10), the reasons a step can stop, and the state after reset
(R22). -/

namespace Sys2Proof.Machine

/-- The five fault causes of spec/60_exceptions.md R181. Raising one is a NEXT state (R184), not a stop of the machine. -/
inductive FaultCode where
  /-- Code 1: an RGB triple has no exact match in the table. -/
  | colorNotFound
  /-- Code 2: width not a whole number of bytes, zero height, or an image the address table has no room for. -/
  | invalidDimensions
  /-- Code 3: an argument outside its valid range. -/
  | outOfRange
  /-- Code 4: the word matches no row of the opcode map. -/
  | illegalCommand
  /-- Code 5: the image or the buffer does not fit its memory. -/
  | bufferRange
  deriving DecidableEq, Repr

/-- The reasons for which the MACHINE stops. There are none: "No behaviour of this block is modelled as `stuck`: every command
either completes or faults, and a faulted block still answers host reads and reset"
(spec/93_implementation_defined.md, end of part 1). Nobody raises one (log 13). -/
inductive Fault where
  deriving DecidableEq, Repr

/-- What the model gives no meaning to. -/
inductive Refusal where
  /-- Raised by `exec` for an instruction that has no meaning yet. No arm does. Safe: nothing is proved of it. -/
  | notModelled (mnemonic : String)
  /-- Raised by a host memory transaction at or above the size of its space: "the spec gives it no meaning and a model
  refuses it" (R173). Safe: nothing is proved of it. -/
  | hostAddressOutside (space : Config.Space) (addr : Nat)
  deriving DecidableEq, Repr

/-- What a host read returned (R172). -/
inductive Reply where
  /-- From `RD`. -/
  | word (v : Word)
  /-- From `RSRC` and `RDST`. -/
  | byte (v : Byte)
  deriving DecidableEq, Repr

/-- A byte memory: the bytes written since power-on, addresses strictly rising. An address that is not listed has not been
written; what it reads as is a free value (`Config.powerOnByte`; log 4, log 5). -/
abbrev Memory := List Host.Cell

/-- The state of the block (R10), the parameters it is built with, and the host's side of the port. -/
structure State where
  /-- STATUS.FAULT, bits [3:0] of STATUS; bits [31:4] read 0 and are not stored (R14, log 12). -/
  statusFault : BitVec 4
  /-- RES (R15). -/
  res : Word
  /-- LEN (R16). -/
  len : Word
  /-- IMG_W (R17). -/
  imgW : BitVec 16
  /-- IMG_H (R17). -/
  imgH : BitVec 16
  /-- PAL_COUNT (R18). -/
  palCount : BitVec 5
  /-- CRTC_R0, horizontal total (R17). -/
  crtcR0 : BitVec 8
  /-- CRTC_R1, horizontal displayed (R17). -/
  crtcR1 : BitVec 8
  /-- CRTC_R6, vertical displayed (R17). -/
  crtcR6 : BitVec 8
  /-- CRTC_R9, maximum raster address (R17). -/
  crtcR9 : BitVec 8
  /-- CRTC_R12, display start address high (R17). -/
  crtcR12 : BitVec 8
  /-- CRTC_R13, display start address low (R17). -/
  crtcR13 : BitVec 8
  /-- PAL_RGB[0..15] (R18). -/
  palRgb : Vector (BitVec 24) 16
  /-- PAL_HW[0..15] (R19). -/
  palHw : Vector Byte 16
  /-- PAL_FW[0..15] (R19). -/
  palFw : Vector Byte 16
  /-- SRC, the source image memory (R40). -/
  src : Memory
  /-- DST, the destination memory (R40). -/
  dst : Memory
  /-- The configuration: CTAB and the parameters of R6. Nothing writes it (R43). The model's own field (log 1). -/
  params : Config.Params
  /-- The host's transactions that have not been answered, oldest first (R11, R172). The model's own field (log 6). -/
  pending : List HostTxn
  /-- What the host's reads returned, newest first. The model's own field (log 7). -/
  replies : List Reply
  deriving DecidableEq, Repr

/-- The machine after power-on, which is a RESET with SRC and DST unspecified (R22, R200, R201): every register and every
register-file entry 0, no byte of SRC or DST written, no transaction made. -/
def State.reset : State where
  statusFault := 0
  res := 0
  len := 0
  imgW := 0
  imgH := 0
  palCount := 0
  crtcR0 := 0
  crtcR1 := 0
  crtcR6 := 0
  crtcR9 := 0
  crtcR12 := 0
  crtcR13 := 0
  palRgb := Vector.replicate 16 0
  palHw := Vector.replicate 16 0
  palFw := Vector.replicate 16 0
  src := []
  dst := []
  params := Config.params
  pending := []
  replies := []

end Sys2Proof.Machine
end

