-- ==== Sys2Proof/Machine/Flags.lean ====
section
/-! DEFINITION. STATUS. The block has no condition codes, carry, zero or overflow flags (spec/10_state.md R12): the only
flag-like state is the field STATUS.FAULT (R14), so these are all the flag computations there are. -/

namespace Sys2Proof.Machine

/-- The number recorded in STATUS.FAULT for a cause (spec/60_exceptions.md R181). -/
def FaultCode.code : FaultCode → BitVec 4
  | .colorNotFound => 1
  | .invalidDimensions => 2
  | .outOfRange => 3
  | .illegalCommand => 4
  | .bufferRange => 5

/-- STATUS as the host reads it: FAULT in bits [3:0], bits [31:4] 0 (R14). -/
def State.statusWord (s : State) : Word := s.statusFault.setWidth 32

/-- A fault is recorded: the block ignores commands until reset (R187). -/
def State.faulted (s : State) : Bool := s.statusFault != 0

end Sys2Proof.Machine
end

