-- ==== Sys2Proof/Machine/Ops.lean ====
section
/-! DEFINITION. The shared operations over memory and registers: byte reads and writes of SRC and DST (spec/20_memory.md),
clear-then-OR packing (R47), taking a fault (spec/60_exceptions.md R184) and RESET beside it, the results of commands, and the
register port (spec/10_state.md R13). -/

namespace Sys2Proof.Machine

open Config (Space)

/-! ## Byte memories -/

/-- The byte written at an address, if one has been written since power-on. -/
def Memory.lookup : Memory → Nat → Option Byte
  | [], _ => none
  | (b, v) :: m, a => if b = a then some v else Memory.lookup m a

/-- `MemRead(space, a, 1)` (spec/00_scope.md R7): the byte written last, or what the address held at power-on (R201, log 4). -/
def Memory.read (space : Space) (m : Memory) (a : Nat) : Byte := (m.lookup a).getD (Config.powerOnByte space a)

/-- `MemWrite(space, a, 1, v)` (R7), keeping the addresses strictly rising. -/
def Memory.write : Memory → Nat → Byte → Memory
  | [], a, v => [(a, v)]
  | (b, u) :: m, a, v =>
    if a < b then (a, v) :: (b, u) :: m
    else if a = b then (a, v) :: m
    else (b, u) :: Memory.write m a v

/-- Every address of the list is above `a` and they rise strictly. -/
def Memory.risesFrom : Nat → Memory → Bool
  | _, [] => true
  | a, (b, _) :: m => decide (a ≤ b) && Memory.risesFrom (b + 1) m

/-- The canonical form of a memory of `size` bytes: addresses strictly rising and inside the space (R40, log 5). -/
def Memory.wf (size : Nat) (m : Memory) : Bool := Memory.risesFrom 0 m && m.all fun c => decide (c.1 < size)

/-- `for a in [0, n): DST[a] <- 0` (R47b). -/
def Memory.clear (m : Memory) (n : Nat) : Memory := (List.range n).foldl (fun m a => m.write a 0) m

/-- `DST[a] |= v` for each `(a, v)` in order (R47c). -/
def Memory.orAll (m : Memory) (writes : List (Nat × Byte)) : Memory :=
  writes.foldl (fun m w => m.write w.1 (m.read .dst w.1 ||| w.2)) m

/-- The memory of a space. -/
def State.mem (s : State) : Space → Memory
  | .src => s.src
  | .dst => s.dst

/-- The size of a space (R40). -/
def State.sizeOf (s : State) : Space → Nat
  | .src => s.params.srcSize
  | .dst => s.params.dstSize

/-- `MemRead(space, a, 1)` in a state. -/
def State.memRead (s : State) (space : Space) (a : Nat) : Byte := (s.mem space).read space a

/-- `MemWrite(space, a, 1, v)` in a state. -/
def State.memWrite (s : State) (space : Space) (a : Nat) (v : Byte) : State :=
  match space with
  | .src => { s with src := s.src.write a v }
  | .dst => { s with dst := s.dst.write a v }

/-! ## Taking a fault, and what undoes one -/

/-- `raise F` (R184): STATUS.FAULT <- code(F); nothing else changes and control goes nowhere. -/
def State.raise (s : State) (f : FaultCode) : State := { s with statusFault := f.code }

/-- RESET (spec/70_reset_and_hazards.md R200), the only way back from a fault (R187): every register and register-file entry 0;
SRC and DST kept. The parameters and the host's side of the port are not the block's registers and stay (log 1, 6, 7). -/
def State.resetBlock (s : State) : State :=
  { State.reset with src := s.src, dst := s.dst, params := s.params, pending := s.pending, replies := s.replies }

/-- A command: all its checks come before its first write (R186). `check` is the first check that fails, if any; `run` is the
execute phase, which cannot fault. -/
def attempt (check : Option FaultCode) (run : State → State) (s : State) : Host.Outcome State Fault Refusal :=
  .next (match check with
    | some f => s.raise f
    | none => run s)

/-! ## Results -/

/-- `RES <- v`, a natural number of which RES keeps the low 32 bits (R15). -/
def State.setRes (s : State) (v : Nat) : State := { s with res := BitVec.ofNat 32 v }

/-- The execute phase of SPRITE and SCREEN: clear DST[0, n), OR every fragment, LEN <- n (R47, R16, log 10). -/
def State.pack (s : State) (n : Nat) (writes : List (Nat × Byte)) : State :=
  { s with dst := (s.dst.clear n).orAll writes, len := BitVec.ofNat 32 n }

/-! ## The register port -/

/-- The register map of R13. -/
def regOfNumber (n : BitVec 6) : Reg :=
  match n.toNat with
  | 0x00 => .cmd
  | 0x01 => .status
  | 0x02 => .res
  | 0x03 => .len
  | 0x04 => .imgW
  | 0x05 => .imgH
  | 0x06 => .palCount
  | 0x08 => .crtcR0
  | 0x09 => .crtcR1
  | 0x0A => .crtcR6
  | 0x0B => .crtcR9
  | 0x0C => .crtcR12
  | 0x0D => .crtcR13
  | k =>
    if k < 0x10 then .reserved
    else if k < 0x20 then .palRgb (Fin.ofNat 16 (k - 0x10))
    else if k < 0x30 then .palHw (Fin.ofNat 16 (k - 0x20))
    else .palFw (Fin.ofNat 16 (k - 0x30))

/-- A read of the port: the register zero-extended to 32 bits; CMD and reserved numbers read 0 (R13). -/
def State.portRead (s : State) : Reg → Word
  | .cmd => 0
  | .status => s.statusWord
  | .res => s.res
  | .len => s.len
  | .imgW => s.imgW.setWidth 32
  | .imgH => s.imgH.setWidth 32
  | .palCount => s.palCount.setWidth 32
  | .crtcR0 => s.crtcR0.setWidth 32
  | .crtcR1 => s.crtcR1.setWidth 32
  | .crtcR6 => s.crtcR6.setWidth 32
  | .crtcR9 => s.crtcR9.setWidth 32
  | .crtcR12 => s.crtcR12.setWidth 32
  | .crtcR13 => s.crtcR13.setWidth 32
  | .palRgb i => s.palRgb[i].setWidth 32
  | .palHw i => s.palHw[i].setWidth 32
  | .palFw i => s.palFw[i].setWidth 32
  | .reserved => 0

/-- A write of the port to a register other than CMD: a narrow register keeps the low bits; a read-only register and a
reserved number ignore it (R13). CMD is not stored: `issue` executes the word (HostPort.lean). -/
def State.portWrite (s : State) (v : Word) : Reg → State
  | .cmd => s
  | .status => s
  | .res => s
  | .len => s
  | .imgW => { s with imgW := v.setWidth 16 }
  | .imgH => { s with imgH := v.setWidth 16 }
  | .palCount => { s with palCount := v.setWidth 5 }
  | .crtcR0 => { s with crtcR0 := v.setWidth 8 }
  | .crtcR1 => { s with crtcR1 := v.setWidth 8 }
  | .crtcR6 => { s with crtcR6 := v.setWidth 8 }
  | .crtcR9 => { s with crtcR9 := v.setWidth 8 }
  | .crtcR12 => { s with crtcR12 := v.setWidth 8 }
  | .crtcR13 => { s with crtcR13 := v.setWidth 8 }
  | .palRgb i => { s with palRgb := s.palRgb.set i (v.setWidth 24) }
  | .palHw _ => s
  | .palFw _ => s
  | .reserved => s

/-- A value goes to the host. -/
def State.reply (s : State) (r : Reply) : State := { s with replies := r :: s.replies }

end Sys2Proof.Machine
end

