-- ==== Sys2Proof/Machine/Operands.lean ====
section
/-! DEFINITION. The operand forms: the MODE operand and the constants of a mode (spec/00_scope.md R4), the image the commands
read (spec/20_memory.md R41), and the range checks that commands share (spec/41_pixel_packer.md R111). -/

namespace Sys2Proof

/-- Pixels per byte (R4). -/
def Mode.ppb : Mode → Nat
  | .mode0 => 2
  | .mode1 => 4
  | .mode2 => 8

/-- Bits per pixel (R4). -/
def Mode.bpp : Mode → Nat
  | .mode0 => 4
  | .mode1 => 2
  | .mode2 => 1

/-- The largest colour index, the "mask color" (R4). -/
def Mode.maxc : Mode → Nat
  | .mode0 => 15
  | .mode1 => 3
  | .mode2 => 1

/-- The mode a MODE operand names; 3 names none (R4, R71). -/
def ModeField.mode : ModeField → Option Mode
  | .m0 => some .mode0
  | .m1 => some .mode1
  | .m2 => some .mode2
  | .m3 => none

end Sys2Proof

namespace Sys2Proof.Machine

/-- The first check of a command that takes a mode: `if MODE = 3: raise OutOfRange` (R76). -/
def withMode (m : ModeField) (s : State) (k : Mode → Host.Outcome State Fault Refusal) : Host.Outcome State Fault Refusal :=
  match m.mode with
  | none => .next (s.raise .outOfRange)
  | some mode => k mode

/-- `off` must be below PPB (R111). -/
def checkOffset (m : Mode) (off : Nat) : Option FaultCode := if m.ppb ≤ off then some .outOfRange else none

/-- `off` below PPB, then `c` at most MAXC (R114). -/
def checkOffsetColor (m : Mode) (off c : Nat) : Option FaultCode :=
  if m.ppb ≤ off then some .outOfRange else if m.maxc < c then some .outOfRange else none

/-- W, the image width in pixels (R17). -/
def State.width (s : State) : Nat := s.imgW.toNat

/-- H, the image height in pixels (R17). -/
def State.height (s : State) : Nat := s.imgH.toNat

/-- `SRC[a]` as a colour index (R41). -/
def State.srcIndex (s : State) (a : Nat) : Nat := (s.memRead .src a).toNat

/-- Every source index `SRC[a]`, `a < W * H`, is a colour of the mode (spec/42_sprite_mask_generator.md R134 check 6,
spec/43_screen_address_mapper.md R158 check 5). -/
def State.sourceInRange (s : State) (m : Mode) : Bool :=
  (List.range (s.width * s.height)).all fun a => decide (s.srcIndex a ≤ m.maxc)

/-- The red, green and blue components of palette slot `i` (spec/10_state.md R18). -/
def State.slotRed (s : State) (i : Fin 16) : Nat := s.palRgb[i].toNat / 2 ^ 16
/-- Bits [15:8] of the slot. -/
def State.slotGreen (s : State) (i : Fin 16) : Nat := s.palRgb[i].toNat / 2 ^ 8 % 2 ^ 8
/-- Bits [7:0] of the slot. -/
def State.slotBlue (s : State) (i : Fin 16) : Nat := s.palRgb[i].toNat % 2 ^ 8

end Sys2Proof.Machine
end

