-- ==== Sys2Proof/Machine/ColorIndexLut.lean ====
section
/-! DEFINITION. The colour table commands (spec/40_color_index_lut.md): HWCODE, FWIDX, RGBOF, PALCONV. -/

namespace Sys2Proof.Machine

open Config (ColorEntry Params)

/-- Exact equality of all three 8-bit components (R91). -/
def entryIs (r g b : Nat) (e : ColorEntry) : Bool :=
  decide (e.r.toNat = r ∧ e.g.toNat = g ∧ e.b.toNat = b)

/-- The first entry with that colour and its position, counting from `i`. -/
def findFrom (r g b : Nat) : Nat → List ColorEntry → Option (Nat × ColorEntry)
  | _, [] => none
  | i, e :: es => if entryIs r g b e then some (i, e) else findFrom r g b (i + 1) es

/-- FIND(r, g, b) (R91), with the entry found. By R92(b) there is at most one (log 11). -/
def findColor (p : Params) (r g b : Nat) : Option (Nat × ColorEntry) := findFrom r g b 0 p.colorTable.toList

/-- A lookup by colour: ColorNotFound where there is none (R94, R95). -/
def lookupColor (r g b : Nat) (result : Nat × ColorEntry → Nat) (s : State) : Host.Outcome State Fault Refusal :=
  .next (match findColor s.params r g b with
    | none => s.raise .colorNotFound
    | some found => s.setRes (result found))

/-- HWCODE r, g, b: RES <- the hardware code of the entry (R94). -/
def execHwcode (r g b : Nat) (s : State) : Host.Outcome State Fault Refusal :=
  lookupColor r g b (fun found => found.2.hw.toNat) s

/-- FWIDX r, g, b: RES <- the position of the entry (R95). -/
def execFwidx (r g b : Nat) (s : State) : Host.Outcome State Fault Refusal :=
  lookupColor r g b (fun found => found.1) s

/-- The triple of an entry packed as the ARG of HWCODE: {0x00, r, g, b} (R96). -/
def packRgb (e : ColorEntry) : Nat := e.r.toNat * 2 ^ 16 + e.g.toNat * 2 ^ 8 + e.b.toNat

/-- RGBOF i: RES <- the triple of entry `i`; OutOfRange for `i >= 27` (R96). -/
def execRgbof (i : Nat) (s : State) : Host.Outcome State Fault Refusal :=
  .next (if h : i < 27 then s.setRes (packRgb s.params.colorTable[i]) else s.raise .outOfRange)

/-- FIND on the components of palette slot `i` (R98). -/
def State.slotEntry (s : State) (i : Fin 16) : Option (Nat × ColorEntry) :=
  findColor s.params (s.slotRed i) (s.slotGreen i) (s.slotBlue i)

/-- Slot `i` is in use: `i < PAL_COUNT` (R18). -/
def State.slotUsed (s : State) (i : Fin 16) : Bool := decide (i.val < s.palCount.toNat)

/-- The pre-flight of PALCONV: PAL_COUNT > 16, then a used slot whose triple is not in the table (R98). -/
def palconvCheck (s : State) : Option FaultCode :=
  if 16 < s.palCount.toNat then some .outOfRange
  else if (List.finRange 16).all (fun i => !s.slotUsed i || (s.slotEntry i).isSome) then none
  else some .colorNotFound

/-- What PALCONV writes to the slot of one output array: a value of the entry for a used slot, 0 for the others (R98). -/
def palconvSlot (s : State) (value : Nat × ColorEntry → Byte) (i : Fin 16) : Byte :=
  if s.slotUsed i then
    match s.slotEntry i with
    | some found => value found
    | none => 0
  else 0

/-- The execute phase of PALCONV: all 32 outputs at once (R19, R98). -/
def palconvRun (s : State) : State :=
  { s with
    palHw := Vector.ofFn (palconvSlot s fun found => found.2.hw)
    palFw := Vector.ofFn (palconvSlot s fun found => BitVec.ofNat 8 found.1) }

/-- PALCONV (R98). -/
def execPalconv (s : State) : Host.Outcome State Fault Refusal := attempt (palconvCheck s) palconvRun s

end Sys2Proof.Machine
end

