-- ==== Sys2Proof/Machine/PixelPacker.lean ====
section
/-! DEFINITION. The pixel functions of spec/30_encoding.md R60 to R65 and the commands of spec/41_pixel_packer.md: ENC, DEC,
MASK, SHIFT, PPB. -/

namespace Sys2Proof.Machine

open Config (Params Mode0Row)

/-- `MODE0_POS[off][j]` of one row (R113). -/
def mode0Position (q : Mode0Row) : Nat → Nat
  | 0 => q.p0.val
  | 1 => q.p1.val
  | 2 => q.p2.val
  | _ => q.p3.val

/-- POS(mode, off, j): the byte position of colour bit `j` of the pixel at offset `off` (R61, R62, R63). -/
def pixelPos (p : Params) (m : Mode) (off j : Nat) : Nat :=
  match m with
  | .mode2 => 7 - off
  | .mode1 => if j = 0 then 3 - off else 7 - off
  | .mode0 => mode0Position (if off = 0 then p.mode0Off0 else p.mode0Off1) j

/-- `bit << n` in a byte. -/
def placeBit (bit : Bool) (n : Nat) : Byte := if bit then 1#8 <<< n else 0#8

/-- ENC(mode, c, off): the OR over j of `c[j] << POS(mode, off, j)` (R60, R114). -/
def encPixel (p : Params) (m : Mode) (c off : Nat) : Byte :=
  (List.range m.bpp).foldl (fun v j => v ||| placeBit (c.testBit j) (pixelPos p m off j)) 0

/-- DEC(mode, b, off): the value `c` with `c[j] = b[POS(mode, off, j)]` (R65, R115). -/
def decPixel (p : Params) (m : Mode) (b off : Nat) : Nat :=
  (List.range m.bpp).foldl (fun c j => c ||| ((b.testBit (pixelPos p m off j)).toNat <<< j)) 0

/-- MASK(mode, off): the bits a pixel at `off` occupies (R64, R116). -/
def maskPixel (p : Params) (m : Mode) (off : Nat) : Byte :=
  (List.range m.bpp).foldl (fun v j => v ||| placeBit true (pixelPos p m off j)) 0

/-- SHIFT(mode, off) = PPB(mode) - 1 - off (R117). -/
def shiftPixel (m : Mode) (off : Nat) : Nat := m.ppb - 1 - off

/-- ENC.Mn c, off (R114). -/
def execEnc (mode : ModeField) (off c : Nat) (s : State) : Host.Outcome State Fault Refusal :=
  withMode mode s fun m => attempt (checkOffsetColor m off c) (fun s => s.setRes (encPixel s.params m c off).toNat) s

/-- DEC.Mn b, off (R115). -/
def execDec (mode : ModeField) (off b : Nat) (s : State) : Host.Outcome State Fault Refusal :=
  withMode mode s fun m => attempt (checkOffset m off) (fun s => s.setRes (decPixel s.params m b off)) s

/-- MASK.Mn off (R116). -/
def execMask (mode : ModeField) (off : Nat) (s : State) : Host.Outcome State Fault Refusal :=
  withMode mode s fun m => attempt (checkOffset m off) (fun s => s.setRes (maskPixel s.params m off).toNat) s

/-- SHIFT.Mn off (R117). -/
def execShift (mode : ModeField) (off : Nat) (s : State) : Host.Outcome State Fault Refusal :=
  withMode mode s fun m => attempt (checkOffset m off) (fun s => s.setRes (shiftPixel m off)) s

/-- PPB.Mn (R118). -/
def execPpb (mode : ModeField) (s : State) : Host.Outcome State Fault Refusal :=
  withMode mode s fun m => attempt none (fun s => s.setRes m.ppb) s

end Sys2Proof.Machine
end

