-- ==== Sys2Proof/Machine/ScreenAddressMapper.lean ====
section
/-! DEFINITION. The address table and the commands of spec/43_screen_address_mapper.md: ROWADDR, ATSIZE, SCREEN. CRTC_R0,
CRTC_R12 and CRTC_R13 are read by none of them (R156). -/

namespace Sys2Proof.Machine

/-- The sub-rows of a character row: R9 + 1 (R151). -/
def subRows (s : State) : Nat := s.crtcR9.toNat + 1

/-- N, the number of entries of the table: R6 * (R9 + 1) (R151). -/
def tableRows (s : State) : Nat := s.crtcR6.toNat * subRows s

/-- row_base(y), the table entry of image row `y` (R152). -/
def rowBase (s : State) (y : Nat) : Nat :=
  y % subRows s * s.params.subrowStride + y / subRows s * s.crtcR1.toNat * s.params.bytesPerChar

/-- TOTAL, the size of the screen buffer, for N >= 1 (R154). -/
def screenTotal (s : State) : Nat := rowBase s (tableRows s - 1) + 2 * s.crtcR1.toNat

/-- ROWADDR y (R160). -/
def execRowaddr (y : Nat) (s : State) : Host.Outcome State Fault Refusal :=
  attempt (if tableRows s ≤ y then some .outOfRange else none) (fun s => s.setRes (rowBase s y)) s

/-- ATSIZE (R161). -/
def execAtsize (s : State) : Host.Outcome State Fault Refusal :=
  attempt (if tableRows s = 0 then some .outOfRange else none) (fun s => s.setRes (screenTotal s)) s

/-- The pre-flight of R158, checks 3 to 5 in their order. -/
def screenCheck (m : Mode) (s : State) : Option FaultCode :=
  if s.width % m.ppb ≠ 0 ∨ s.height = 0 ∨ tableRows s < s.height ∨ 2 * s.crtcR1.toNat < s.width / m.ppb then
    some .invalidDimensions
  else if s.params.srcSize < s.width * s.height ∨ s.params.dstSize < screenTotal s then some .bufferRange
  else if s.sourceInRange m then none
  else some .outOfRange

/-- The address of the byte that holds pixel (x, y) (R155). -/
def screenAddr (m : Mode) (s : State) (y x : Nat) : Nat := rowBase s y + x / m.ppb

/-- The writes of both loops of R162 in their order. -/
def screenWrites (m : Mode) (s : State) : List (Nat × Byte) :=
  (List.range s.height).flatMap fun y =>
    (List.range s.width).map fun x =>
      (screenAddr m s y x, encPixel s.params m (s.srcIndex (y * s.width + x)) (x % m.ppb))

/-- SCREEN.Mn (R162). -/
def execScreen (mode : ModeField) (s : State) : Host.Outcome State Fault Refusal :=
  withMode mode s fun m => attempt (screenCheck m s) (fun s => s.pack (screenTotal s) (screenWrites m s)) s

end Sys2Proof.Machine
end

