-- ==== Sys2Proof/Machine/SpriteMaskGenerator.lean ====
section
/-! DEFINITION. The command SPRITE (spec/42_sprite_mask_generator.md), with the buffer layout of spec/30_encoding.md R66 to
R68. -/

namespace Sys2Proof.Machine

/-- BPR: bytes of pixel data per row (R66). -/
def bytesPerRow (m : Mode) (s : State) : Nat := s.width / m.ppb

/-- MC: 2 if masking is enabled, else 1 (R66). -/
def maskCoefficient (im : Bool) : Nat := if im then 2 else 1

/-- NP: PPB pages with offsets, else one (R66). -/
def numPages (m : Mode) (io : Bool) : Nat := if io then m.ppb else 1

/-- ROWLEN (R66). -/
def rowLength (m : Mode) (im : Bool) (s : State) : Nat := bytesPerRow m s * maskCoefficient im

/-- PAGELEN (R66). -/
def pageLength (m : Mode) (im : Bool) (s : State) : Nat := s.height * rowLength m im s

/-- The length SPRITE reports (R66, R132). -/
def spriteLength (m : Mode) (io im : Bool) (s : State) : Nat := pageLength m im s * numPages m io

/-- The address of byte column `col` of row `y` of page `k`: the mask byte with masking, else the data byte (R67, R68). -/
def columnAddr (m : Mode) (im : Bool) (s : State) (k y col : Nat) : Nat :=
  k * pageLength m im s + y * rowLength m im s + col * maskCoefficient im

/-- data_addr (R68). -/
def dataAddr (m : Mode) (im : Bool) (s : State) (k y col : Nat) : Nat :=
  columnAddr m im s k y col + (maskCoefficient im - 1)

/-- The colour value of position `x` of row `y` of page `k`: the source index, or T where there is no source pixel (R135,
R136). -/
def positionColor (t : Nat) (s : State) (k y x : Nat) : Nat :=
  if k ≤ x then s.srcIndex (y * s.width + (x - k)) else t

/-- The position is transparent for the mask: its colour is T and it is in bounds or OOBM = 1 (R137). -/
def positionMasked (t : Nat) (oobm : Bool) (s : State) (k y x : Nat) : Bool :=
  decide (positionColor t s k y x = t) && (decide (k ≤ x) || oobm)

/-- What the loop body of R131 ORs into DST for one position. -/
def spriteWritesAt (m : Mode) (t : Nat) (oobm im : Bool) (s : State) (k y x : Nat) : List (Nat × Byte) :=
  (dataAddr m im s k y (x / m.ppb), encPixel s.params m (positionColor t s k y x) (x % m.ppb)) ::
    (if im && positionMasked t oobm s k y x then [(columnAddr m im s k y (x / m.ppb), maskPixel s.params m (x % m.ppb))]
     else [])

/-- The writes of all three loops of R131 in their order: pages, rows, columns. -/
def spriteWrites (m : Mode) (t : Nat) (oobm io im : Bool) (s : State) : List (Nat × Byte) :=
  (List.range (numPages m io)).flatMap fun k =>
    (List.range s.height).flatMap fun y =>
      (List.range s.width).flatMap fun x => spriteWritesAt m t oobm im s k y x

/-- The pre-flight of R134, checks 3 to 6 in their order. -/
def spriteCheck (m : Mode) (t : Nat) (io im : Bool) (s : State) : Option FaultCode :=
  if io ∧ m.maxc < t then some .outOfRange
  else if s.width % m.ppb ≠ 0 ∨ s.height = 0 then some .invalidDimensions
  else if s.params.srcSize < s.width * s.height ∨ s.params.dstSize < spriteLength m io im s then some .bufferRange
  else if s.sourceInRange m then none
  else some .outOfRange

/-- SPRITE.Mn im, io, oobm, t (R131). -/
def execSprite (mode : ModeField) (t : Nat) (oobm io im : Bool) (s : State) : Host.Outcome State Fault Refusal :=
  withMode mode s fun m =>
    attempt (spriteCheck m t io im s) (fun s => s.pack (spriteLength m io im s) (spriteWrites m t oobm io im s)) s

end Sys2Proof.Machine
end

