-- ==== Sys2Proof/Machine/System.lean ====
section
/-! DEFINITION. The system command (spec/44_system.md R170). -/

namespace Sys2Proof.Machine

/-- NOP: "no state changes: no register, no register file, no memory, no fault" (R170). -/
def execNop (s : State) : Host.Outcome State Fault Refusal := attempt none id s

end Sys2Proof.Machine
end

