-- ==== Sys2Proof/Machine/Dispatch.lean ====
section
/-! DEFINITION. One arm per command: the meaning of a decoded command word (spec/30_encoding.md R75). -/

namespace Sys2Proof.Machine

def exec (i : Instr) (s : State) : Host.Outcome State Fault Refusal :=
  match i with
  | .nop => Sys2Proof.Machine.execNop s
  | .hwcode r g b => Sys2Proof.Machine.execHwcode r g b s
  | .fwidx r g b => Sys2Proof.Machine.execFwidx r g b s
  | .rgbof n => Sys2Proof.Machine.execRgbof n s
  | .palconv => Sys2Proof.Machine.execPalconv s
  | .enc m off c => Sys2Proof.Machine.execEnc m off c s
  | .dec m off b => Sys2Proof.Machine.execDec m off b s
  | .mask m off => Sys2Proof.Machine.execMask m off s
  | .shift m off => Sys2Proof.Machine.execShift m off s
  | .ppb m => Sys2Proof.Machine.execPpb m s
  | .sprite m t oobm io im => Sys2Proof.Machine.execSprite m t oobm io im s
  | .rowaddr y => Sys2Proof.Machine.execRowaddr y s
  | .atsize => Sys2Proof.Machine.execAtsize s
  | .screen m => Sys2Proof.Machine.execScreen m s

end Sys2Proof.Machine
end

