-- ==== Sys2Proof/Machine/HostPort.lean ====
section
/-! DEFINITION. The host's transactions (spec/44_system.md R172): what the block does with each. -/

namespace Sys2Proof.Machine

open Config (Space)

/-- A write to CMD: ignored while a fault is recorded (spec/60_exceptions.md R187); else the word is decoded, raising
IllegalCommand where it matches no row (spec/30_encoding.md R76), and executed to completion (R70). -/
def issue (w : Word) (s : State) : Host.Outcome State Fault Refusal :=
  if s.faulted then .next s
  else
    match decode w with
    | .ok i => exec i s
    | .error _ => .next (s.raise .illegalCommand)

/-- `WR reg, value` (R172): a write to CMD executes a command, any other goes to the register port (R13). -/
def hostWriteReg (number : BitVec 6) (v : Word) (s : State) : Host.Outcome State Fault Refusal :=
  match regOfNumber number with
  | .cmd => issue v s
  | r => .next (s.portWrite v r)

/-- A host memory write; refused outside the space (R173). -/
def hostMemWrite (space : Space) (a : Nat) (v : Byte) (s : State) : Host.Outcome State Fault Refusal :=
  if a < s.sizeOf space then .next (s.memWrite space a v) else .refused (.hostAddressOutside space a)

/-- A host memory read; refused outside the space (R173). No side effect on the block (R172). -/
def hostMemRead (space : Space) (a : Nat) (s : State) : Host.Outcome State Fault Refusal :=
  if a < s.sizeOf space then .next (s.reply (.byte (s.memRead space a))) else .refused (.hostAddressOutside space a)

/-- What the block does with one transaction (R172). -/
def transact (t : HostTxn) (s : State) : Host.Outcome State Fault Refusal :=
  match t with
  | .writeReg number v => hostWriteReg number v s
  | .readReg number => .next (s.reply (.word (s.portRead (regOfNumber number))))
  | .writeSrc a v => hostMemWrite .src a v s
  | .readSrc a => hostMemRead .src a s
  | .writeDst a v => hostMemWrite .dst a v s
  | .readDst a => hostMemRead .dst a s
  | .reset => .next s.resetBlock

/-- The next transaction of the host, in the order the host issues them (spec/20_memory.md R51). With none the block is idle
and keeps all its state (spec/60_exceptions.md R192). -/
def answerNext (s : State) : Host.Outcome State Fault Refusal :=
  match s.pending with
  | [] => .next s
  | t :: rest => transact t { s with pending := rest }

/-- The state with one more transaction put before all that are pending: `WR CMD, w`. -/
def State.withCommand (s : State) (w : Word) : State := { s with pending := .writeReg 0 w :: s.pending }

end Sys2Proof.Machine
end

