-- ==== Sys2Proof/Machine/Step.lean ====
section
/-! DEFINITION. One step: the block answers the host's next transaction (spec/44_system.md R172, spec/20_memory.md R51). -/

namespace Sys2Proof.Machine

/-- One step of the machine (log 6). -/
def step (s : State) : Host.Outcome State Fault Refusal := answerNext s

/-- The state in which the very next step runs the command whose bits are `w`: the block fetches nothing (spec/10_state.md
R11), a command comes by the host's write to CMD, so that write is put first (log 6, log 8). -/
def State.withFetchWord (s : State) (nbits w : Nat) : State := s.withCommand (tableWord nbits w)

end Sys2Proof.Machine
end

