-- ==== Sys2Proof/Safety.lean ====
section
/-! DEFINITION. What counts as a safe run, in the terms the statements use: the invariant of the machine, the transactions the
spec gives a meaning to (spec/44_system.md R173), and a run without a recorded fault (spec/60_exceptions.md R187). -/

namespace Sys2Proof.Machine

/-- The invariant every step keeps. -/
structure Inv (s : State) : Prop where
  /-- The parameters meet R92, R113 and R157. -/
  params : s.params.Valid
  /-- SRC is in canonical form and inside SRC_SIZE (R40, log 5). -/
  src : s.src.wf s.params.srcSize = true
  /-- DST is in canonical form and inside DST_SIZE (R40, log 5). -/
  dst : s.dst.wf s.params.dstSize = true
  /-- "Codes 6 to 15 are never recorded" (R181). -/
  fault : s.statusFault.toNat ≤ 5
  /-- "A length never exceeds DST_SIZE" (R16). -/
  len : s.len.toNat ≤ s.params.dstSize
  /-- Every firmware index is in the index space 0..26 (R92d, R19). -/
  palFw : ∀ i : Fin 16, s.palFw[i].toNat < 27

/-- A transaction the spec gives a meaning to: a memory transaction stays inside its space (R173). -/
def Legal (s : State) : HostTxn → Prop
  | .writeReg _ _ => True
  | .readReg _ => True
  | .writeSrc a _ => a < s.params.srcSize
  | .readSrc a => a < s.params.srcSize
  | .writeDst a _ => a < s.params.dstSize
  | .readDst a => a < s.params.dstSize
  | .reset => True

/-- No command has faulted since reset: what a host must see in STATUS before it uses an output (R208). -/
def Safe (s : State) : Prop := s.statusFault = 0

end Sys2Proof.Machine
end

