-- ==== Sys2Proof/Certificates/Slice0/Obligations.lean ====
section
/-! DEFINITION. The statements for the provers. Each docstring names the rule of spec/ it formalises. The closed forms below
(namespace Sys2Proof.Claims) are written from the rules, not from the model's own functions. `s.pending = x :: rest` is how
the model writes "the host makes the transaction x now" (R172; log 6). -/

namespace Sys2Proof.Claims

open Sys2Proof.Machine
open Sys2Proof.Config (Params)

/-! ## Closed forms of the spec -/

/-- "The closed forms" of ENC (R114, R61, R62, R63). -/
def encForm (p : Params) (m : Mode) (off c : Nat) : Nat :=
  match m with
  | .mode2 => c <<< (7 - off)
  | .mode1 => ((c / 2 % 2) <<< (7 - off)) ||| ((c % 2) <<< (3 - off))
  | .mode0 =>
    let q := if off = 0 then p.mode0Off0 else p.mode0Off1
    ((c % 2) <<< q.p0.val) ||| ((c / 2 % 2) <<< q.p1.val) ||| ((c / 4 % 2) <<< q.p2.val) ||| ((c / 8 % 2) <<< q.p3.val)

/-- The closed forms of DEC (R115), Mode0 from R65. -/
def decForm (p : Params) (m : Mode) (off b : Nat) : Nat :=
  match m with
  | .mode2 => (b >>> (7 - off)) % 2
  | .mode1 => (((b >>> (7 - off)) % 2) <<< 1) ||| ((b >>> (3 - off)) % 2)
  | .mode0 =>
    let q := if off = 0 then p.mode0Off0 else p.mode0Off1
    ((b >>> q.p0.val) % 2) ||| (((b >>> q.p1.val) % 2) <<< 1) ||| (((b >>> q.p2.val) % 2) <<< 2) |||
      (((b >>> q.p3.val) % 2) <<< 3)

/-- The bits a pixel at `off` occupies (R116, R61, R62, R63). -/
def maskForm (p : Params) (m : Mode) (off : Nat) : Nat :=
  match m with
  | .mode2 => 1 <<< (7 - off)
  | .mode1 => (1 <<< (7 - off)) ||| (1 <<< (3 - off))
  | .mode0 =>
    let q := if off = 0 then p.mode0Off0 else p.mode0Off1
    (1 <<< q.p0.val) ||| (1 <<< q.p1.val) ||| (1 <<< q.p2.val) ||| (1 <<< q.p3.val)

/-- The OR over `off` in [0, n) of `f off`. -/
def orOver (n : Nat) (f : Nat → Nat) : Nat := (List.range n).foldl (fun v off => v ||| f off) 0

/-- `SRC[a]` (R41). -/
def srcByte (s : State) (a : Nat) : Nat := (s.memRead .src a).toNat

/-- `DST[a]` (R42). -/
def dstByte (s : State) (a : Nat) : Nat := (s.memRead .dst a).toNat

/-- BPR of R66. -/
def bpr (m : Mode) (s : State) : Nat := s.imgW.toNat / m.ppb

/-- MC of R66. -/
def mc (im : Bool) : Nat := if im then 2 else 1

/-- NP of R66. -/
def np (m : Mode) (io : Bool) : Nat := if io then m.ppb else 1

/-- The length of R132. -/
def spriteLen (m : Mode) (io im : Bool) (s : State) : Nat := s.imgH.toNat * bpr m s * mc im * np m io

/-- `row_base(y, k)` of R67. -/
def spriteRow (m : Mode) (im : Bool) (s : State) (k y : Nat) : Nat :=
  k * (s.imgH.toNat * (bpr m s * mc im)) + y * (bpr m s * mc im)

/-- P(k, y, x) of R141. -/
def spriteColor (t : Nat) (s : State) (k y x : Nat) : Nat :=
  if k ≤ x then srcByte s (y * s.imgW.toNat + x - k) else t

/-- The data byte of (k, y, col) in the closed form of R141. -/
def spriteData (m : Mode) (t : Nat) (s : State) (k y col : Nat) : Nat :=
  orOver m.ppb fun off => encForm s.params m off (spriteColor t s k y (col * m.ppb + off))

/-- The mask byte of (k, y, col) in the closed form of R141. -/
def spriteMask (m : Mode) (t : Nat) (oobm : Bool) (s : State) (k y col : Nat) : Nat :=
  orOver m.ppb fun off =>
    if spriteColor t s k y (col * m.ppb + off) = t ∧ (k ≤ col * m.ppb + off ∨ oobm = true) then maskForm s.params m off
    else 0

/-- N of R151. -/
def rows (s : State) : Nat := s.crtcR6.toNat * (s.crtcR9.toNat + 1)

/-- `row_base(y)` of R152. -/
def rowAt (s : State) (y : Nat) : Nat :=
  (y % (s.crtcR9.toNat + 1)) * s.params.subrowStride + (y / (s.crtcR9.toNat + 1)) * s.crtcR1.toNat * s.params.bytesPerChar

/-- TOTAL of R154. -/
def total (s : State) : Nat := rowAt s (rows s - 1) + 2 * s.crtcR1.toNat

/-! ## Shorthands -/

/-- Every source index of the image is a colour of the mode (R134 check 6). -/
def SourceOk (m : Mode) (s : State) : Prop := ∀ a < s.imgW.toNat * s.imgH.toNat, srcByte s a ≤ m.maxc

/-- What passes the pre-flight of SPRITE for a mode (R134 checks 3 to 6). -/
structure SpriteOk (m : Mode) (t : Nat) (io im : Bool) (s : State) : Prop where
  sentinel : io = true → t ≤ m.maxc
  width : s.imgW.toNat % m.ppb = 0
  height : 0 < s.imgH.toNat
  source : s.imgW.toNat * s.imgH.toNat ≤ s.params.srcSize
  buffer : spriteLen m io im s ≤ s.params.dstSize
  indices : SourceOk m s

/-- The conditions of InvalidDimensions for SCREEN (R158 check 3). -/
def ScreenDims (m : Mode) (s : State) : Prop :=
  s.imgW.toNat % m.ppb = 0 ∧ 0 < s.imgH.toNat ∧ s.imgH.toNat ≤ rows s ∧ s.imgW.toNat / m.ppb ≤ 2 * s.crtcR1.toNat

/-- What passes the pre-flight of SCREEN for a mode (R158 checks 3 to 5). -/
structure ScreenOk (m : Mode) (s : State) : Prop where
  dims : ScreenDims m s
  source : s.imgW.toNat * s.imgH.toNat ≤ s.params.srcSize
  buffer : total s ≤ s.params.dstSize
  indices : SourceOk m s

/-- Entry `i` has the colour (r, g, b) (R91). -/
def HasColor (s : State) (i : Fin 27) (r g b : Nat) : Prop :=
  s.params.colorTable[i].r.toNat = r ∧ s.params.colorTable[i].g.toNat = g ∧ s.params.colorTable[i].b.toNat = b

/-- Palette slot `q` holds the triple of entry `i` (R18). -/
def SlotIs (s : State) (q : Fin 16) (i : Fin 27) : Prop :=
  s.palRgb[q] = s.params.colorTable[i].r ++ s.params.colorTable[i].g ++ s.params.colorTable[i].b

/-- The command raises a fault of that code: STATUS.FAULT is the code and nothing else changes (R184). -/
def Raises (i : Instr) (s : State) (code : BitVec 4) : Prop := exec i s = .next { s with statusFault := code }

/-- The word of value `n` is the command `i`, in the form of R78. -/
def Encodes (n : Nat) (i : Instr) : Prop := decode (BitVec.ofNat 32 n) = .ok i

/-- The step that answers a write of the word to CMD in a state without a fault raises IllegalCommand, code 4. -/
def IllegalWord (w : Word) : Prop :=
  ∀ (s : State) (rest : List HostTxn), s.statusFault = 0 → s.pending = .writeReg 0 w :: rest →
    step s = .next { s with pending := rest, statusFault := 4 }

/-- Every register and register-file entry is 0 (R22). -/
structure RegistersZero (s : State) : Prop where
  statusFault : s.statusFault = 0
  res : s.res = 0
  len : s.len = 0
  imgW : s.imgW = 0
  imgH : s.imgH = 0
  palCount : s.palCount = 0
  crtcR0 : s.crtcR0 = 0
  crtcR1 : s.crtcR1 = 0
  crtcR6 : s.crtcR6 = 0
  crtcR9 : s.crtcR9 = 0
  crtcR12 : s.crtcR12 = 0
  crtcR13 : s.crtcR13 = 0
  palRgb : ∀ i : Fin 16, s.palRgb[i] = 0
  palHw : ∀ i : Fin 16, s.palHw[i] = 0
  palFw : ∀ i : Fin 16, s.palFw[i] = 0

/-- The inputs of commands, which no command writes (R17, R18, R40, R43), and the host's side of the port. -/
structure InputsKept (s t : State) : Prop where
  src : t.src = s.src
  imgW : t.imgW = s.imgW
  imgH : t.imgH = s.imgH
  palCount : t.palCount = s.palCount
  palRgb : t.palRgb = s.palRgb
  crtcR0 : t.crtcR0 = s.crtcR0
  crtcR1 : t.crtcR1 = s.crtcR1
  crtcR6 : t.crtcR6 = s.crtcR6
  crtcR9 : t.crtcR9 = s.crtcR9
  crtcR12 : t.crtcR12 = s.crtcR12
  crtcR13 : t.crtcR13 = s.crtcR13
  params : t.params = s.params
  pending : t.pending = s.pending
  replies : t.replies = s.replies

/-- The fault codes a command may record, by its mnemonic (R182). -/
def mayRaise : Instr → List (BitVec 4)
  | .nop => []
  | .hwcode _ _ _ => [1]
  | .fwidx _ _ _ => [1]
  | .rgbof _ => [3]
  | .palconv => [3, 1]
  | .enc _ _ _ => [3]
  | .dec _ _ _ => [3]
  | .mask _ _ => [3]
  | .shift _ _ => [3]
  | .ppb _ => [3]
  | .sprite _ _ _ _ _ => [3, 2, 5]
  | .rowaddr _ => [3]
  | .atsize => [3]
  | .screen _ => [3, 2, 5]

/-- The commands that write RES (R15). -/
def writesRes : Instr → Bool
  | .hwcode _ _ _ => true
  | .fwidx _ _ _ => true
  | .rgbof _ => true
  | .enc _ _ _ => true
  | .dec _ _ _ => true
  | .mask _ _ => true
  | .shift _ _ => true
  | .ppb _ => true
  | .rowaddr _ => true
  | .atsize => true
  | .nop => false
  | .palconv => false
  | .sprite _ _ _ _ _ => false
  | .screen _ => false

/-- The commands that write LEN and DST (R16, R40). -/
def writesLen : Instr → Bool
  | .sprite _ _ _ _ _ => true
  | .screen _ => true
  | _ => false

/-- The register numbers the host can write, CMD apart (R13). -/
def writableNumber (n : BitVec 6) : Prop :=
  n = 0x04 ∨ n = 0x05 ∨ n = 0x06 ∨ n = 0x08 ∨ n = 0x09 ∨ n = 0x0A ∨ n = 0x0B ∨ n = 0x0C ∨ n = 0x0D ∨
    (0x10 ≤ n.toNat ∧ n.toNat < 0x20)

/-- The step answers a read of register `n` with the value `v` (R13, R172). -/
def Reads (n : BitVec 6) (v : State → Word) : Prop :=
  ∀ (s : State) (rest : List HostTxn), s.pending = .readReg n :: rest →
    step s = .next { s with pending := rest, replies := .word (v s) :: s.replies }

/-- The step answers a write of `v` to register `n` with the state `f v s` (R13, R172). -/
def Writes (n : BitVec 6) (f : Word → State → State) : Prop :=
  ∀ (s : State) (v : Word) (rest : List HostTxn), s.pending = .writeReg n v :: rest →
    step s = .next { f v s with pending := rest }

end Sys2Proof.Claims

open Sys2Proof Sys2Proof.Machine Sys2Proof.Claims

/-! ## Reset, steps and the port -/

/-- R22, R200, R201: after power-on and after RESET every register and register-file entry is 0, SRC and DST are not changed by
RESET, and the table is constant. That a byte after power-on reads as `Config.powerOnByte`, a value nothing fixes, is the
model's choice for what R201 leaves open (log 4). -/
def Obligations.ResetZeroesEveryRegister : Prop :=
  RegistersZero State.reset ∧
  (∀ sp a, State.reset.memRead sp a = Config.powerOnByte sp a) ∧
  ∀ (s : State) (rest : List HostTxn), s.pending = .reset :: rest →
    ∃ t, step s = .next t ∧ RegistersZero t ∧ t.src = s.src ∧ t.dst = s.dst ∧ t.params = s.params

/-- R70, R51: the step that answers a write to CMD of a word that decodes to `i`, in a state without a fault, is `exec i`
after that transaction is taken from the pending ones. -/
def Obligations.StepRunsTheDecodedCommand : Prop :=
  ∀ (s : State) (w : Word) (rest : List HostTxn) (i : Instr),
    s.statusFault = 0 → s.pending = .writeReg 0 w :: rest → decode w = .ok i → step s = exec i { s with pending := rest }

/-- The interface `withFetchWord` (log 8): the very next step in a state without a fault runs the command of the table word. -/
def Obligations.FetchWordRunsNext : Prop :=
  ∀ (s : State) (nbits w : Nat) (i : Instr),
    s.statusFault = 0 → decodeTableWord nbits w = some i → step (s.withFetchWord nbits w) = exec i s

/-- R187: while STATUS.FAULT is not 0 a write to CMD is ignored, whatever the word; no step but RESET changes the code, RESET
clears it, and the other transactions the spec gives a meaning to are still answered. -/
def Obligations.StickyFaultIgnoresCommands : Prop :=
  (∀ (s : State) (w : Word) (rest : List HostTxn), s.statusFault ≠ 0 → s.pending = .writeReg 0 w :: rest →
    step s = .next { s with pending := rest }) ∧
  (∀ (s t : State), s.statusFault ≠ 0 → step s = .next t →
    t.statusFault = s.statusFault ∨ ∃ rest, s.pending = .reset :: rest) ∧
  (∀ (s : State) (rest : List HostTxn), s.pending = .reset :: rest → ∃ t, step s = .next t ∧ t.statusFault = 0) ∧
  (∀ (s : State) (x : HostTxn) (rest : List HostTxn), s.statusFault ≠ 0 → s.pending = x :: rest → Legal s x →
    ∃ t, step s = .next t)

/-- R187, R14: a step changes a recorded fault only when it answers RESET, and records one only when it answers a write to CMD;
the code it records is 1 to 5 (R181). -/
def Obligations.OnlyResetClearsTheFault : Prop :=
  ∀ (s t : State), step s = .next t → t.statusFault ≠ s.statusFault →
    (∃ rest, s.pending = .reset :: rest ∧ t.statusFault = 0) ∨
    (s.statusFault = 0 ∧ (∃ w rest, s.pending = .writeReg 0 w :: rest) ∧ 1 ≤ t.statusFault.toNat ∧ t.statusFault.toNat ≤ 5)

/-- R76, R171: a word that matches no row of the opcode map raises IllegalCommand with no other effect; the words with OP 0xE
and 0xF are such words. -/
def Obligations.IllegalWordsRaiseIllegalCommand : Prop :=
  (∀ w : Word, (∀ r ∈ opcodeTable, w &&& r.mask ≠ r.pattern) → IllegalWord w) ∧
  (∀ w : Word, 0xE ≤ w.toNat / 2 ^ 28 → IllegalWord w)

/-- R13: what a read of each register number returns: the register zero-extended; 0 for CMD and for reserved numbers. -/
def Obligations.PortReadsReturnTheRegister : Prop :=
  Reads 0x00 (fun _ => 0) ∧
  Reads 0x01 (fun s => s.statusFault.setWidth 32) ∧
  Reads 0x02 (fun s => s.res) ∧
  Reads 0x03 (fun s => s.len) ∧
  Reads 0x04 (fun s => s.imgW.setWidth 32) ∧
  Reads 0x05 (fun s => s.imgH.setWidth 32) ∧
  Reads 0x06 (fun s => s.palCount.setWidth 32) ∧
  Reads 0x07 (fun _ => 0) ∧
  Reads 0x08 (fun s => s.crtcR0.setWidth 32) ∧
  Reads 0x09 (fun s => s.crtcR1.setWidth 32) ∧
  Reads 0x0A (fun s => s.crtcR6.setWidth 32) ∧
  Reads 0x0B (fun s => s.crtcR9.setWidth 32) ∧
  Reads 0x0C (fun s => s.crtcR12.setWidth 32) ∧
  Reads 0x0D (fun s => s.crtcR13.setWidth 32) ∧
  Reads 0x0E (fun _ => 0) ∧
  Reads 0x0F (fun _ => 0) ∧
  (∀ i : Fin 16, Reads (BitVec.ofNat 6 (0x10 + i.val)) (fun s => s.palRgb[i].setWidth 32)) ∧
  (∀ i : Fin 16, Reads (BitVec.ofNat 6 (0x20 + i.val)) (fun s => s.palHw[i].setWidth 32)) ∧
  (∀ i : Fin 16, Reads (BitVec.ofNat 6 (0x30 + i.val)) (fun s => s.palFw[i].setWidth 32))

/-- R13: what a write of each register number but CMD does, whether or not a fault is recorded (R173): a narrow register keeps
the low bits; read-only and reserved numbers ignore it. CMD is the subject of other statements. -/
def Obligations.PortWritesKeepTheLowBits : Prop :=
  Writes 0x04 (fun v s => { s with imgW := BitVec.ofNat 16 v.toNat }) ∧
  Writes 0x05 (fun v s => { s with imgH := BitVec.ofNat 16 v.toNat }) ∧
  Writes 0x06 (fun v s => { s with palCount := BitVec.ofNat 5 v.toNat }) ∧
  Writes 0x08 (fun v s => { s with crtcR0 := BitVec.ofNat 8 v.toNat }) ∧
  Writes 0x09 (fun v s => { s with crtcR1 := BitVec.ofNat 8 v.toNat }) ∧
  Writes 0x0A (fun v s => { s with crtcR6 := BitVec.ofNat 8 v.toNat }) ∧
  Writes 0x0B (fun v s => { s with crtcR9 := BitVec.ofNat 8 v.toNat }) ∧
  Writes 0x0C (fun v s => { s with crtcR12 := BitVec.ofNat 8 v.toNat }) ∧
  Writes 0x0D (fun v s => { s with crtcR13 := BitVec.ofNat 8 v.toNat }) ∧
  (∀ i : Fin 16, Writes (BitVec.ofNat 6 (0x10 + i.val)) fun v s =>
    { s with palRgb := s.palRgb.set i (BitVec.ofNat 24 v.toNat) }) ∧
  (∀ n : BitVec 6, n ≠ 0 → ¬ writableNumber n → Writes n fun _ s => s)

/-- R172, R173: a host memory write inside its space writes that byte and no other of either space; a read returns the byte with
no side effect; a transaction at or above the size of its space is refused. That the byte read is put at the head of the replies
is the model's choice (log 7). -/
def Obligations.HostMemoryTransactions : Prop :=
  (∀ (s : State) (a : Nat) (v : Byte) (rest : List HostTxn), s.pending = .writeSrc a v :: rest → a < s.params.srcSize →
    ∃ m, step s = .next { s with pending := rest, src := m } ∧
      ∀ b, { s with src := m }.memRead .src b = if b = a then v else s.memRead .src b) ∧
  (∀ (s : State) (a : Nat) (v : Byte) (rest : List HostTxn), s.pending = .writeDst a v :: rest → a < s.params.dstSize →
    ∃ m, step s = .next { s with pending := rest, dst := m } ∧
      ∀ b, { s with dst := m }.memRead .dst b = if b = a then v else s.memRead .dst b) ∧
  (∀ (s : State) (a : Nat) (rest : List HostTxn), s.pending = .readSrc a :: rest → a < s.params.srcSize →
    step s = .next { s with pending := rest, replies := .byte (s.memRead .src a) :: s.replies }) ∧
  (∀ (s : State) (a : Nat) (rest : List HostTxn), s.pending = .readDst a :: rest → a < s.params.dstSize →
    step s = .next { s with pending := rest, replies := .byte (s.memRead .dst a) :: s.replies }) ∧
  (∀ (s : State) (a : Nat) (v : Byte) (rest : List HostTxn), s.params.srcSize ≤ a →
    (s.pending = .writeSrc a v :: rest ∨ s.pending = .readSrc a :: rest) →
    step s = .refused (.hostAddressOutside .src a)) ∧
  (∀ (s : State) (a : Nat) (v : Byte) (rest : List HostTxn), s.params.dstSize ≤ a →
    (s.pending = .writeDst a v :: rest ∨ s.pending = .readDst a :: rest) →
    step s = .refused (.hostAddressOutside .dst a))

/-- R174, R192: with no transaction pending the block is idle and keeps all its state. That such a step is a next state and not
a stop is the model's choice (log 6). -/
def Obligations.IdleKeepsAllState : Prop := ∀ s : State, s.pending = [] → step s = .next s

/-- R52, R184: every transaction the spec gives a meaning to is answered with a next state; it alone is taken from the pending
ones, and at most one reply is added (log 6, log 7). -/
def Obligations.LegalTransactionsAreAnswered : Prop :=
  ∀ (s : State) (x : HostTxn) (rest : List HostTxn), s.pending = x :: rest → Legal s x →
    ∃ t, step s = .next t ∧ t.pending = rest ∧ (t.replies = s.replies ∨ ∃ r, t.replies = r :: s.replies)

/-- R43, R40: "The table never changes and no command or host transaction can write it", nor any other parameter; and SRC
changes only by the host's source write. -/
def Obligations.NoStepWritesTheTable : Prop :=
  ∀ s t : State, step s = .next t →
    t.params = s.params ∧ (t.src = s.src ∨ ∃ a v rest, s.pending = .writeSrc a v :: rest)

/-! ## Encoding -/

/-- R75, R78: decoding the word of a well-formed command gives the command back, with every operand at every value its field
admits. -/
def Obligations.DecodeOfEncode : Prop := ∀ i : Instr, i.WellFormed = true → decode (encode i) = .ok i

/-- R76, R77: a word that decodes is the word of the command it decodes to, and that command is well formed: no two words are
one command. -/
def Obligations.EncodeOfDecode : Prop := ∀ (w : Word) (i : Instr), decode w = .ok i → i.WellFormed = true ∧ encode i = w

/-- R75: "a word `w` is the command when `w & mask = match`", for each of the fourteen rows. -/
def Obligations.DecodeFollowsTheOpcodeMap : Prop :=
  ∀ (w : Word), ∀ r ∈ opcodeTable, w &&& r.mask = r.pattern ↔ ∃ i, decode w = .ok i ∧ i.mnemonic = r.mnemonic

/-- R72, R73: the operands of a decoded command are the fields of ARG and MODE the tables name. -/
def Obligations.OperandsAreTheirFields : Prop :=
  ∀ (w : Word) (i : Instr), decode w = .ok i →
    match i with
    | .nop => True
    | .hwcode r g b => r = (w.extractLsb 23 16).toNat ∧ g = (w.extractLsb 15 8).toNat ∧ b = (w.extractLsb 7 0).toNat
    | .fwidx r g b => r = (w.extractLsb 23 16).toNat ∧ g = (w.extractLsb 15 8).toNat ∧ b = (w.extractLsb 7 0).toNat
    | .rgbof j => j = (w.extractLsb 7 0).toNat
    | .palconv => True
    | .enc m off c =>
      m.number = (w.extractLsb 27 26).toNat ∧ off = (w.extractLsb 15 8).toNat ∧ c = (w.extractLsb 7 0).toNat
    | .dec m off b =>
      m.number = (w.extractLsb 27 26).toNat ∧ off = (w.extractLsb 15 8).toNat ∧ b = (w.extractLsb 7 0).toNat
    | .mask m off => m.number = (w.extractLsb 27 26).toNat ∧ off = (w.extractLsb 15 8).toNat
    | .shift m off => m.number = (w.extractLsb 27 26).toNat ∧ off = (w.extractLsb 15 8).toNat
    | .ppb m => m.number = (w.extractLsb 27 26).toNat
    | .sprite m t oobm io im =>
      m.number = (w.extractLsb 27 26).toNat ∧ t = (w.extractLsb 7 4).toNat ∧ oobm = w.getLsbD 2 ∧ io = w.getLsbD 1 ∧
        im = w.getLsbD 0
    | .rowaddr y => y = (w.extractLsb 15 0).toNat
    | .atsize => True
    | .screen m => m.number = (w.extractLsb 27 26).toNat

/-- R75: a word of each sub-block written out bit by bit from its pattern decodes to its command. -/
def Obligations.WrittenOutWordsDecode : Prop :=
  decode 0b00000000000000000000000000000000 = .ok .nop ∧
  decode 0b00010000111111111000000000000001 = .ok (.hwcode 255 128 1) ∧
  decode 0b00110000000000000000000000011010 = .ok (.rgbof 26) ∧
  decode 0b01011000000000000000001100000001 = .ok (.enc .m2 3 1) ∧
  decode 0b10100100000000000000000010010101 = .ok (.sprite .m1 9 true false true) ∧
  decode 0b10110000000000000000000011001000 = .ok (.rowaddr 200) ∧
  decode 0b11010100000000000000000000000000 = .ok (.screen .m1)

/-! ## The commands -/

/-- R170: NOP changes nothing; 0 is its only word; it is ignored like any command while a fault is recorded. -/
def Obligations.NopChangesNothing : Prop :=
  (∀ s : State, exec .nop s = .next s) ∧
  decode 0 = .ok .nop ∧
  (∀ w : Word, w.toNat / 2 ^ 28 = 0 → w ≠ 0 → IllegalWord w) ∧
  (∀ (s : State) (rest : List HostTxn), s.statusFault ≠ 0 → s.pending = .writeReg 0 0 :: rest →
    step s = .next { s with pending := rest })

/-- R94: HWCODE of the triple of entry `i` gives its hardware code, of any other triple ColorNotFound; nothing else changes; a
word with MODE or RSV not 0 is illegal. -/
def Obligations.HwcodeLooksUpTheHardwareCode : Prop :=
  (∀ (s : State) (i : Fin 27) (r g b : Nat), s.params.Valid → HasColor s i r g b →
    exec (.hwcode r g b) s = .next { s with res := s.params.colorTable[i].hw.setWidth 32 }) ∧
  (∀ (s : State) (r g b : Nat), (∀ i, ¬ HasColor s i r g b) → Raises (.hwcode r g b) s 1) ∧
  (∀ r g b, r < 256 → g < 256 → b < 256 → Encodes (0x10000000 + r * 2 ^ 16 + g * 2 ^ 8 + b) (.hwcode r g b)) ∧
  (∀ w : Word, w.toNat / 2 ^ 28 = 1 → w.toNat / 2 ^ 24 % 16 ≠ 0 → IllegalWord w)

/-- R95: FWIDX of the triple of entry `i` gives `i`, of any other triple ColorNotFound; nothing else changes. -/
def Obligations.FwidxLooksUpThePosition : Prop :=
  (∀ (s : State) (i : Fin 27) (r g b : Nat), s.params.Valid → HasColor s i r g b →
    exec (.fwidx r g b) s = .next { s with res := BitVec.ofNat 32 i.val }) ∧
  (∀ (s : State) (r g b : Nat), (∀ i, ¬ HasColor s i r g b) → Raises (.fwidx r g b) s 1) ∧
  (∀ r g b, r < 256 → g < 256 → b < 256 → Encodes (0x20000000 + r * 2 ^ 16 + g * 2 ^ 8 + b) (.fwidx r g b)) ∧
  (∀ w : Word, w.toNat / 2 ^ 28 = 2 → w.toNat / 2 ^ 24 % 16 ≠ 0 → IllegalWord w)

/-- R96: RGBOF i gives the triple of entry `i` packed {0x00, r, g, b}; OutOfRange from 27 on; nothing else changes. -/
def Obligations.RgbofReturnsTheTriple : Prop :=
  (∀ (s : State) (i : Fin 27),
    exec (.rgbof i.val) s =
      .next { s with res := 0#8 ++ s.params.colorTable[i].r ++ s.params.colorTable[i].g ++ s.params.colorTable[i].b }) ∧
  (∀ (s : State) (i : Nat), 27 ≤ i → Raises (.rgbof i) s 3) ∧
  (∀ n < 256, Encodes (0x30000000 + n) (.rgbof n)) ∧
  (∀ w : Word, w.toNat / 2 ^ 28 = 3 → w.toNat / 2 ^ 8 % 2 ^ 20 ≠ 0 → IllegalWord w)

/-- R97: the round trips of the three lookups, through the words a host builds from RES; and HWCODE gives distinct results for
the triples of distinct entries. -/
def Obligations.TableRoundTrips : Prop :=
  (∀ (s : State) (i : Fin 27), s.params.Valid →
    ∃ t, exec (.rgbof i.val) s = .next t ∧
      (∃ f, decode (0x20000000 + t.res) = .ok f ∧ exec f t = .next { t with res := BitVec.ofNat 32 i.val }) ∧
      (∃ h, decode (0x10000000 + t.res) = .ok h ∧
        exec h t = .next { t with res := s.params.colorTable[i].hw.setWidth 32 })) ∧
  (∀ (s t : State) (r g b : Nat), s.statusFault = 0 → exec (.fwidx r g b) s = .next t → t.statusFault = 0 →
    ∃ u, exec (.rgbof t.res.toNat) t = .next u ∧ u.res.toNat = r * 2 ^ 16 + g * 2 ^ 8 + b) ∧
  (∀ (s : State) (i j : Fin 27) (r g b r' g' b' : Nat), s.params.Valid → i ≠ j → HasColor s i r g b →
    HasColor s j r' g' b' →
    ∃ t u, exec (.hwcode r g b) s = .next t ∧ exec (.hwcode r' g' b') s = .next u ∧ t.statusFault = s.statusFault ∧
      u.statusFault = s.statusFault ∧ t.res ≠ u.res)

/-- R98, R99: PALCONV writes all 32 outputs from the entries of the used slots, 0 in the unused; it writes nothing when it
faults. -/
def Obligations.PalconvConvertsThePalette : Prop :=
  (∀ (s : State) (f : Fin 16 → Fin 27), s.params.Valid → s.palCount.toNat ≤ 16 →
    (∀ q : Fin 16, q.val < s.palCount.toNat → SlotIs s q (f q)) →
    exec .palconv s = .next { s with
      palHw := Vector.ofFn fun q => if q.val < s.palCount.toNat then s.params.colorTable[f q].hw else 0
      palFw := Vector.ofFn fun q => if q.val < s.palCount.toNat then BitVec.ofNat 8 (f q).val else 0 }) ∧
  (∀ s : State, 16 < s.palCount.toNat → Raises .palconv s 3) ∧
  (∀ (s : State) (q : Fin 16), s.palCount.toNat ≤ 16 → q.val < s.palCount.toNat → (∀ i, ¬ SlotIs s q i) →
    Raises .palconv s 1) ∧
  Encodes 0x40000000 .palconv ∧
  (∀ w : Word, w.toNat / 2 ^ 28 = 4 → w ≠ 0x40000000 → IllegalWord w)

/-- R114: ENC in its closed forms; OutOfRange for MODE = 3, `off ≥ PPB`, `c > MAXC`; nothing else changes. -/
def Obligations.EncPacksOnePixel : Prop :=
  (∀ (s : State) (mf : ModeField) (m : Mode) (off c : Nat), mf.mode = some m → off < m.ppb → c ≤ m.maxc →
    exec (.enc mf off c) s = .next { s with res := BitVec.ofNat 32 (encForm s.params m off c) }) ∧
  (∀ (s : State) (off c : Nat), Raises (.enc .m3 off c) s 3) ∧
  (∀ (s : State) (mf : ModeField) (m : Mode) (off c : Nat), mf.mode = some m → (m.ppb ≤ off ∨ m.maxc < c) →
    Raises (.enc mf off c) s 3) ∧
  (∀ (mf : ModeField) (off c : Nat), off < 256 → c < 256 →
    Encodes (0x50000000 + mf.number * 2 ^ 26 + off * 2 ^ 8 + c) (.enc mf off c)) ∧
  (∀ w : Word, w.toNat / 2 ^ 28 = 5 → (w.toNat / 2 ^ 24 % 4 ≠ 0 ∨ w.toNat / 2 ^ 16 % 2 ^ 8 ≠ 0) → IllegalWord w)

/-- R115: DEC in its closed forms, for every byte; OutOfRange for MODE = 3 and `off ≥ PPB`; nothing else changes. -/
def Obligations.DecUnpacksOnePixel : Prop :=
  (∀ (s : State) (mf : ModeField) (m : Mode) (off b : Nat), mf.mode = some m → off < m.ppb → b < 256 →
    exec (.dec mf off b) s = .next { s with res := BitVec.ofNat 32 (decForm s.params m off b) }) ∧
  (∀ (s : State) (off b : Nat), Raises (.dec .m3 off b) s 3) ∧
  (∀ (s : State) (mf : ModeField) (m : Mode) (off b : Nat), mf.mode = some m → m.ppb ≤ off → Raises (.dec mf off b) s 3) ∧
  (∀ (mf : ModeField) (off b : Nat), off < 256 → b < 256 →
    Encodes (0x60000000 + mf.number * 2 ^ 26 + off * 2 ^ 8 + b) (.dec mf off b)) ∧
  (∀ w : Word, w.toNat / 2 ^ 28 = 6 → (w.toNat / 2 ^ 24 % 4 ≠ 0 ∨ w.toNat / 2 ^ 16 % 2 ^ 8 ≠ 0) → IllegalWord w)

/-- R116, R64: MASK gives the bits of the position, which is what ENC gives for the largest colour; OutOfRange for MODE = 3 and
`off ≥ PPB`; nothing else changes. -/
def Obligations.MaskGivesThePixelBits : Prop :=
  (∀ (s : State) (mf : ModeField) (m : Mode) (off : Nat), mf.mode = some m → off < m.ppb →
    exec (.mask mf off) s = .next { s with res := BitVec.ofNat 32 (maskForm s.params m off) } ∧
    exec (.mask mf off) s = exec (.enc mf off m.maxc) s) ∧
  (∀ (s : State) (off : Nat), Raises (.mask .m3 off) s 3) ∧
  (∀ (s : State) (mf : ModeField) (m : Mode) (off : Nat), mf.mode = some m → m.ppb ≤ off → Raises (.mask mf off) s 3) ∧
  (∀ (mf : ModeField) (off : Nat), off < 256 → Encodes (0x70000000 + mf.number * 2 ^ 26 + off * 2 ^ 8) (.mask mf off)) ∧
  (∀ w : Word, w.toNat / 2 ^ 28 = 7 →
    (w.toNat / 2 ^ 24 % 4 ≠ 0 ∨ w.toNat / 2 ^ 16 % 2 ^ 8 ≠ 0 ∨ w.toNat % 2 ^ 8 ≠ 0) → IllegalWord w)

/-- R117: SHIFT gives PPB − 1 − off; OutOfRange for MODE = 3 and `off ≥ PPB`; nothing else changes. -/
def Obligations.ShiftGivesTheShiftConstant : Prop :=
  (∀ (s : State) (off : Nat), off < 2 → exec (.shift .m0 off) s = .next { s with res := BitVec.ofNat 32 (1 - off) }) ∧
  (∀ (s : State) (off : Nat), off < 4 → exec (.shift .m1 off) s = .next { s with res := BitVec.ofNat 32 (3 - off) }) ∧
  (∀ (s : State) (off : Nat), off < 8 → exec (.shift .m2 off) s = .next { s with res := BitVec.ofNat 32 (7 - off) }) ∧
  (∀ (s : State) (off : Nat), Raises (.shift .m3 off) s 3) ∧
  (∀ (s : State) (off : Nat), 2 ≤ off → Raises (.shift .m0 off) s 3) ∧
  (∀ (s : State) (off : Nat), 4 ≤ off → Raises (.shift .m1 off) s 3) ∧
  (∀ (s : State) (off : Nat), 8 ≤ off → Raises (.shift .m2 off) s 3) ∧
  (∀ (mf : ModeField) (off : Nat), off < 256 → Encodes (0x80000000 + mf.number * 2 ^ 26 + off * 2 ^ 8) (.shift mf off)) ∧
  (∀ w : Word, w.toNat / 2 ^ 28 = 8 →
    (w.toNat / 2 ^ 24 % 4 ≠ 0 ∨ w.toNat / 2 ^ 16 % 2 ^ 8 ≠ 0 ∨ w.toNat % 2 ^ 8 ≠ 0) → IllegalWord w)

/-- R118: PPB gives 2, 4 and 8; OutOfRange for MODE = 3; nothing else changes. -/
def Obligations.PpbGivesThePixelsPerByte : Prop :=
  (∀ s : State, exec (.ppb .m0) s = .next { s with res := 2 }) ∧
  (∀ s : State, exec (.ppb .m1) s = .next { s with res := 4 }) ∧
  (∀ s : State, exec (.ppb .m2) s = .next { s with res := 8 }) ∧
  (∀ s : State, Raises (.ppb .m3) s 3) ∧
  (∀ mf : ModeField, Encodes (0x90000000 + mf.number * 2 ^ 26) (.ppb mf)) ∧
  (∀ w : Word, w.toNat / 2 ^ 28 = 9 → (w.toNat / 2 ^ 24 % 4 ≠ 0 ∨ w.toNat % 2 ^ 24 ≠ 0) → IllegalWord w)

/-- R119(a): DEC of what ENC put into RES gives the colour back. -/
def Obligations.DecodeOfAnEncodedPixel : Prop :=
  ∀ (s : State) (mf : ModeField) (m : Mode) (off c : Nat), s.params.Valid → mf.mode = some m → off < m.ppb → c ≤ m.maxc →
    ∃ t, exec (.enc mf off c) s = .next t ∧ exec (.dec mf off t.res.toNat) t = .next { t with res := BitVec.ofNat 32 c }

/-- R119(b), (c), (d), (e): fragments at different offsets share no bit, a fragment lies in its mask, the masks cover the byte,
and a fragment determines its colour. -/
def Obligations.FragmentsAreExclusiveAndCover : Prop :=
  ∀ (p : Config.Params) (m : Mode), p.Valid →
    (∀ off off' c c', off < m.ppb → off' < m.ppb → off ≠ off' → c ≤ m.maxc → c' ≤ m.maxc →
      encPixel p m c off &&& encPixel p m c' off' = 0) ∧
    (∀ off off', off < m.ppb → off' < m.ppb → off ≠ off' → maskPixel p m off &&& maskPixel p m off' = 0) ∧
    (∀ off c, off < m.ppb → c ≤ m.maxc → encPixel p m c off &&& maskPixel p m off = encPixel p m c off) ∧
    orOver m.ppb (fun off => (maskPixel p m off).toNat) = 0xFF ∧
    (∀ off c c', off < m.ppb → c ≤ m.maxc → c' ≤ m.maxc → encPixel p m c off = encPixel p m c' off → c = c')

/-- R119(f), (g), R206: clearing a pixel's bits and ORing a fragment replaces that pixel and no other. -/
def Obligations.ReplacingOnePixel : Prop :=
  ∀ (p : Config.Params) (m : Mode) (b off off' c : Nat), p.Valid → b < 256 → off < m.ppb → off' < m.ppb → c ≤ m.maxc →
    decPixel p m ((b &&& (0xFF - (maskPixel p m off).toNat)) ||| (encPixel p m c off).toNat) off = c ∧
    (off' ≠ off →
      decPixel p m ((b &&& (0xFF - (maskPixel p m off).toNat)) ||| (encPixel p m c off).toNat) off' = decPixel p m b off' ∧
      decPixel p m (b ||| (encPixel p m c off).toNat) off' = decPixel p m b off')

/-- R119(h): a byte is the OR of the fragments of exactly one choice of colours, and DEC gives that choice. -/
def Obligations.PackAndUnpackAreInverse : Prop :=
  ∀ (p : Config.Params) (m : Mode), p.Valid →
    (∀ (c : Nat → Nat), (∀ o < m.ppb, c o ≤ m.maxc) → ∀ o < m.ppb,
      decPixel p m (orOver m.ppb fun off => (encPixel p m (c off) off).toNat) o = c o) ∧
    (∀ b < 256, (∀ o < m.ppb, decPixel p m b o ≤ m.maxc) ∧
      orOver m.ppb (fun off => (encPixel p m (decPixel p m b off) off).toNat) = b)

/-- R120: the shift law: in Mode1 and Mode2 always; in Mode0 exactly when each position of offset 0 is one above that of
offset 1; and the masks it names. The last clause is about every parameter set with the default MODE0_POS of R63: it meets the
Mode0 condition and MASK(Mode0, 1) is 0x55. -/
def Obligations.ShiftLaw : Prop :=
  (∀ (p : Config.Params) (m : Mode), p.Valid →
    ((∀ c off, c ≤ m.maxc → off < m.ppb →
        (encPixel p m c off).toNat = (encPixel p m c (m.ppb - 1)).toNat <<< (m.ppb - 1 - off) ∧
        (maskPixel p m off).toNat = (maskPixel p m (m.ppb - 1)).toNat <<< (m.ppb - 1 - off)) ↔
      (m = .mode1 ∨ m = .mode2 ∨
        (p.mode0Off0.p0.val = p.mode0Off1.p0.val + 1 ∧ p.mode0Off0.p1.val = p.mode0Off1.p1.val + 1 ∧
         p.mode0Off0.p2.val = p.mode0Off1.p2.val + 1 ∧ p.mode0Off0.p3.val = p.mode0Off1.p3.val + 1)))) ∧
  (∀ p : Config.Params, maskPixel p .mode2 7 = 0x01 ∧ maskPixel p .mode1 3 = 0x11) ∧
  (∀ p : Config.Params, p.mode0Off0 = ⟨7, 3, 5, 1⟩ → p.mode0Off1 = ⟨6, 2, 4, 0⟩ →
    p.mode0Off0.p0.val = p.mode0Off1.p0.val + 1 ∧ p.mode0Off0.p1.val = p.mode0Off1.p1.val + 1 ∧
    p.mode0Off0.p2.val = p.mode0Off1.p2.val + 1 ∧ p.mode0Off0.p3.val = p.mode0Off1.p3.val + 1 ∧
    maskPixel p .mode0 1 = 0x55)

/-! ## SPRITE -/

/-- R131, R132, R141, R142: when its checks pass SPRITE completes: it writes DST[0, L) and LEN and nothing else; every data byte
and every mask byte has its closed form; no byte at or above L changes. LEN is the low 32 bits of L: that is the model's reading
for L = 2^32 (log 10), and L itself for every smaller one (SpriteReportsItsLength). -/
def Obligations.SpriteWritesItsBuffer : Prop :=
  ∀ (s : State) (mf : ModeField) (m : Mode) (t : Nat) (oobm io im : Bool), mf.mode = some m → SpriteOk m t io im s →
    ∃ u d, exec (.sprite mf t oobm io im) s = .next u ∧
      u = { s with dst := d, len := BitVec.ofNat 32 (spriteLen m io im s) } ∧
      (∀ k < np m io, ∀ y < s.imgH.toNat, ∀ col < bpr m s,
        dstByte u (spriteRow m im s k y + col * mc im + (mc im - 1)) = spriteData m t s k y col ∧
        (im = true → dstByte u (spriteRow m im s k y + col * mc im) = spriteMask m t oobm s k y col)) ∧
      (∀ a, spriteLen m io im s ≤ a → u.memRead .dst a = s.memRead .dst a)

/-- R132: the length in LEN, in the general form, in the form with the ceiling of W/PPB, and for the four combinations of the
options, for every L below 2^32 (at L = 2^32 see log 10). -/
def Obligations.SpriteReportsItsLength : Prop :=
  ∀ (s : State) (mf : ModeField) (m : Mode) (t : Nat) (oobm io im : Bool), mf.mode = some m → SpriteOk m t io im s →
    spriteLen m io im s < 2 ^ 32 →
    ∃ u, exec (.sprite mf t oobm io im) s = .next u ∧
      u.len.toNat = s.imgH.toNat * (s.imgW.toNat / m.ppb) * mc im * np m io ∧
      u.len.toNat = s.imgH.toNat * ((s.imgW.toNat + (m.ppb - 1)) / m.ppb) * mc im * np m io ∧
      (im = false → io = false → u.len.toNat = s.imgH.toNat * bpr m s) ∧
      (im = true → io = false → u.len.toNat = 2 * s.imgH.toNat * bpr m s) ∧
      (im = false → io = true → u.len.toNat = s.imgW.toNat * s.imgH.toNat) ∧
      (im = true → io = true → u.len.toNat = 2 * s.imgW.toNat * s.imgH.toNat)

/-- R133: every address of DST that the execute phase of SPRITE forms is below L, the largest is L − 1, and every byte of
DST[0, L) is a byte of exactly one (k, y, col), counted by the model's own `columnAddr`, `dataAddr` and `spriteLength`: `lane`
counts the bytes of a column, the last is the data byte, and with masking lane 0 is the mask byte. Every source byte a page
shows is one of the image. After the BufferRange check no access is outside its space. -/
def Obligations.SpriteBytesAreCountedOnce : Prop :=
  ∀ (s : State) (m : Mode) (io im : Bool),
    (∀ (t : Nat) (oobm : Bool), s.imgW.toNat % m.ppb = 0 →
      ∀ w ∈ spriteWrites m t oobm io im s, w.1 < spriteLength m io im s) ∧
    (∀ k y col, dataAddr m im s k y col = columnAddr m im s k y col + (mc im - 1)) ∧
    (∀ k < np m io, ∀ y < s.imgH.toNat, ∀ col < bpr m s, ∀ lane < mc im,
      columnAddr m im s k y col + lane < spriteLength m io im s) ∧
    (0 < s.imgH.toNat → 0 < bpr m s →
      dataAddr m im s (np m io - 1) (s.imgH.toNat - 1) (bpr m s - 1) + 1 = spriteLength m io im s) ∧
    (∀ a < spriteLength m io im s, ∃ k y col lane, k < np m io ∧ y < s.imgH.toNat ∧ col < bpr m s ∧ lane < mc im ∧
      a = columnAddr m im s k y col + lane ∧
      ∀ k' < np m io, ∀ y' < s.imgH.toNat, ∀ col' < bpr m s, ∀ lane' < mc im,
        a = columnAddr m im s k' y' col' + lane' → k' = k ∧ y' = y ∧ col' = col ∧ lane' = lane) ∧
    (∀ t k x, ∀ y < s.imgH.toNat, k ≤ x → x < s.imgW.toNat →
      ∃ a < s.imgW.toNat * s.imgH.toNat, a = y * s.imgW.toNat + (x - k) ∧ positionColor t s k y x = srcByte s a) ∧
    (∀ (t : Nat) (oobm : Bool), SpriteOk m t io im s →
      (∀ w ∈ spriteWrites m t oobm io im s, w.1 < s.params.dstSize) ∧
      ∀ a < s.imgW.toNat * s.imgH.toNat, a < s.params.srcSize)

/-- R134: the checks of SPRITE in their order, each raising its fault when those before it pass; nothing else changes. -/
def Obligations.SpriteChecksInOrder : Prop :=
  ∀ (s : State) (mf : ModeField) (m : Mode) (t : Nat) (oobm io im : Bool),
    Raises (.sprite .m3 t oobm io im) s 3 ∧
    (mf.mode = some m →
      (io = true → m.maxc < t → Raises (.sprite mf t oobm io im) s 3) ∧
      ((io = true → t ≤ m.maxc) →
        (s.imgW.toNat % m.ppb ≠ 0 ∨ s.imgH.toNat = 0 → Raises (.sprite mf t oobm io im) s 2) ∧
        (s.imgW.toNat % m.ppb = 0 → s.imgH.toNat ≠ 0 →
          (s.params.srcSize < s.imgW.toNat * s.imgH.toNat ∨ s.params.dstSize < spriteLen m io im s →
            Raises (.sprite mf t oobm io im) s 5) ∧
          (s.imgW.toNat * s.imgH.toNat ≤ s.params.srcSize → spriteLen m io im s ≤ s.params.dstSize → ¬ SourceOk m s →
            Raises (.sprite mf t oobm io im) s 3)))) ∧
    (t < 16 → Encodes (0xA0000000 + mf.number * 2 ^ 26 + t * 2 ^ 4 + oobm.toNat * 2 ^ 2 + io.toNat * 2 + im.toNat)
      (.sprite mf t oobm io im)) ∧
    (∀ w : Word, w.toNat / 2 ^ 28 = 0xA →
      (w.toNat / 2 ^ 24 % 4 ≠ 0 ∨ w.toNat / 2 ^ 8 % 2 ^ 16 ≠ 0 ∨ w.toNat / 2 ^ 3 % 2 ≠ 0) → IllegalWord w)

/-- R140: with no masks and no pages neither T nor OOBM has any effect and the output is H × BPR bytes in closed form; the data
bytes of page 0 of every configuration that does not fault are the bytes of that flat pack. -/
def Obligations.FlatPackEqualsPageZero : Prop :=
  (∀ (s : State) (mf : ModeField) (t : Nat) (oobm : Bool),
    exec (.sprite mf t oobm false false) s = exec (.sprite mf 0 false false false) s) ∧
  (∀ (s u : State) (mf : ModeField) (m : Mode) (t : Nat) (oobm io im : Bool), mf.mode = some m → s.statusFault = 0 →
    exec (.sprite mf t oobm io im) s = .next u → u.statusFault = 0 →
    ∃ v, exec (.sprite mf 0 false false false) s = .next v ∧ v.statusFault = 0 ∧
      v.len = BitVec.ofNat 32 (s.imgH.toNat * bpr m s) ∧
      ∀ y < s.imgH.toNat, ∀ col < bpr m s,
        dstByte v (y * bpr m s + col) =
          orOver m.ppb (fun off => encForm s.params m off (srcByte s (y * s.imgW.toNat + col * m.ppb + off))) ∧
        u.memRead .dst ((y * bpr m s + col) * mc im + (mc im - 1)) = v.memRead .dst (y * bpr m s + col))

/-- R141: the source image is recoverable from page 0 by DEC. -/
def Obligations.SourceIsRecoverableFromPageZero : Prop :=
  ∀ (s u : State) (mf : ModeField) (m : Mode) (t : Nat) (oobm io im : Bool), s.params.Valid → mf.mode = some m →
    s.statusFault = 0 → exec (.sprite mf t oobm io im) s = .next u → u.statusFault = 0 →
    ∀ y < s.imgH.toNat, ∀ x < s.imgW.toNat,
      exec (.dec mf (x % m.ppb) (dstByte u ((y * bpr m s + x / m.ppb) * mc im + (mc im - 1)))) u =
        .next { u with res := BitVec.ofNat 32 (srcByte s (y * s.imgW.toNat + x)) }

/-! ## The address table and SCREEN -/

/-- R160: ROWADDR gives the table entry, low 32 bits; OutOfRange from N on; nothing else changes. -/
def Obligations.RowaddrGivesTheTableEntry : Prop :=
  (∀ (s : State) (y : Nat), y < rows s → exec (.rowaddr y) s = .next { s with res := BitVec.ofNat 32 (rowAt s y) }) ∧
  (∀ (s : State) (y : Nat), rows s ≤ y → Raises (.rowaddr y) s 3) ∧
  (∀ y < 2 ^ 16, Encodes (0xB0000000 + y) (.rowaddr y)) ∧
  (∀ w : Word, w.toNat / 2 ^ 28 = 0xB → w.toNat / 2 ^ 16 % 2 ^ 12 ≠ 0 → IllegalWord w)

/-- R161, R154, R153(d): ATSIZE gives `R9 × SUBROW_STRIDE + (R6 − 1) × R1 × BYTES_PER_CHAR + 2 × R1`, low 32 bits; OutOfRange
for an empty table; nothing else changes. -/
def Obligations.AtsizeGivesTheTotalSize : Prop :=
  (∀ s : State, 0 < rows s →
    exec .atsize s = .next { s with
      res := BitVec.ofNat 32 (s.crtcR9.toNat * s.params.subrowStride +
        (s.crtcR6.toNat - 1) * s.crtcR1.toNat * s.params.bytesPerChar + 2 * s.crtcR1.toNat) }) ∧
  (∀ s : State, rows s = 0 → Raises .atsize s 3) ∧
  Encodes 0xC0000000 .atsize ∧
  (∀ w : Word, w.toNat / 2 ^ 28 = 0xC → w ≠ 0xC0000000 → IllegalWord w)

/-- R153, R159: the table starts at 0; lines of a character row are SUBROW_STRIDE apart, first lines of character rows
`R1 × BYTES_PER_CHAR` apart; it is not monotonic; the last entry is the largest, in closed form; two rows do not overlap under
the two conditions on the strides; and after the checks of SCREEN every DST address is below TOTAL and every SRC address inside
the image. -/
def Obligations.TableEntriesAndBounds : Prop :=
  ∀ s : State,
    rowBase s 0 = 0 ∧
    (∀ y, y % (s.crtcR9.toNat + 1) < s.crtcR9.toNat → rowBase s (y + 1) = rowBase s y + s.params.subrowStride) ∧
    (∀ q, rowBase s ((q + 1) * (s.crtcR9.toNat + 1)) =
      rowBase s (q * (s.crtcR9.toNat + 1)) + s.crtcR1.toNat * s.params.bytesPerChar) ∧
    (s.crtcR1.toNat * s.params.bytesPerChar < s.crtcR9.toNat * s.params.subrowStride →
      rowBase s (s.crtcR9.toNat + 1) < rowBase s s.crtcR9.toNat) ∧
    (0 < rows s → rowBase s (rows s - 1) =
      s.crtcR9.toNat * s.params.subrowStride + (s.crtcR6.toNat - 1) * s.crtcR1.toNat * s.params.bytesPerChar) ∧
    (∀ y < rows s, rowBase s y ≤ rowBase s (rows s - 1)) ∧
    (∀ len, len ≤ s.crtcR1.toNat * s.params.bytesPerChar →
      (s.crtcR6.toNat - 1) * s.crtcR1.toNat * s.params.bytesPerChar + len ≤ s.params.subrowStride →
      ∀ y < rows s, ∀ y' < rows s, y ≠ y' → rowBase s y + len ≤ rowBase s y' ∨ rowBase s y' + len ≤ rowBase s y) ∧
    (∀ (m : Mode) (y x : Nat), ScreenOk m s → y < s.imgH.toNat → x < s.imgW.toNat →
      rowBase s y + x / m.ppb < total s ∧ y * s.imgW.toNat + x < s.imgW.toNat * s.imgH.toNat ∧
        s.imgW.toNat * s.imgH.toNat ≤ s.params.srcSize)

/-- R162, R163, R164: when its checks pass SCREEN completes: it writes DST[0, TOTAL) and LEN and nothing else; a bit of a byte
is set exactly when the fragment of a pixel that goes to that byte has it set; no byte at or above TOTAL changes. LEN is the low
32 bits of TOTAL: that is the model's reading for TOTAL = 2^32 (log 10), and TOTAL itself for every smaller one
(ScreenReportsTotal). -/
def Obligations.ScreenWritesItsBuffer : Prop :=
  ∀ (s : State) (mf : ModeField) (m : Mode), mf.mode = some m → ScreenOk m s →
    ∃ u d, exec (.screen mf) s = .next u ∧ u = { s with dst := d, len := BitVec.ofNat 32 (total s) } ∧
      (∀ a < total s, ∀ n, (dstByte u a).testBit n = true ↔
        ∃ y < s.imgH.toNat, ∃ x < s.imgW.toNat, rowAt s y + x / m.ppb = a ∧
          (encForm s.params m (x % m.ppb) (srcByte s (y * s.imgW.toNat + x))).testBit n = true) ∧
      (∀ a, total s ≤ a → u.memRead .dst a = s.memRead .dst a)

/-- R154, R162: LEN is the closed form of TOTAL, for every TOTAL below 2^32 (at TOTAL = 2^32 see log 10); and so is the RES of
ATSIZE, whether or not SCREEN's checks pass. -/
def Obligations.ScreenReportsTotal : Prop :=
  (∀ (s : State) (mf : ModeField) (m : Mode), mf.mode = some m → ScreenOk m s → total s < 2 ^ 32 →
    ∃ u, exec (.screen mf) s = .next u ∧ u.len.toNat = s.crtcR9.toNat * s.params.subrowStride +
      (s.crtcR6.toNat - 1) * s.crtcR1.toNat * s.params.bytesPerChar + 2 * s.crtcR1.toNat) ∧
  (∀ s : State, 0 < rows s → total s < 2 ^ 32 →
    ∃ u, exec .atsize s = .next u ∧ u.res.toNat = total s)

/-- R158: the checks of SCREEN in their order, each raising its fault when those before it pass; nothing else changes. -/
def Obligations.ScreenChecksInOrder : Prop :=
  ∀ (s : State) (mf : ModeField) (m : Mode),
    Raises (.screen .m3) s 3 ∧
    (mf.mode = some m →
      (¬ ScreenDims m s → Raises (.screen mf) s 2) ∧
      (ScreenDims m s →
        (s.params.srcSize < s.imgW.toNat * s.imgH.toNat ∨ s.params.dstSize < total s → Raises (.screen mf) s 5) ∧
        (s.imgW.toNat * s.imgH.toNat ≤ s.params.srcSize → total s ≤ s.params.dstSize → ¬ SourceOk m s →
          Raises (.screen mf) s 3))) ∧
    Encodes (0xD0000000 + mf.number * 2 ^ 26) (.screen mf) ∧
    (∀ w : Word, w.toNat / 2 ^ 28 = 0xD → (w.toNat / 2 ^ 24 % 4 ≠ 0 ∨ w.toNat % 2 ^ 24 ≠ 0) → IllegalWord w)

/-- R158, R153(e): where rows do not overlap the screen image is faithful: DEC of the byte of a pixel gives the pixel. -/
def Obligations.ScreenIsFaithfulWithoutOverlap : Prop :=
  ∀ (s : State) (mf : ModeField) (m : Mode), s.params.Valid → mf.mode = some m → ScreenOk m s →
    s.imgW.toNat / m.ppb ≤ s.crtcR1.toNat * s.params.bytesPerChar →
    (s.crtcR6.toNat - 1) * s.crtcR1.toNat * s.params.bytesPerChar + s.imgW.toNat / m.ppb ≤ s.params.subrowStride →
    ∃ u, exec (.screen mf) s = .next u ∧
      ∀ y < s.imgH.toNat, ∀ x < s.imgW.toNat,
        exec (.dec mf (x % m.ppb) (dstByte u (rowAt s y + x / m.ppb))) u =
          .next { u with res := BitVec.ofNat 32 (srcByte s (y * s.imgW.toNat + x)) }

/-! ## The whole machine -/

/-- R17, R18, R40, R43, R142, R164: no command writes its inputs: SRC, the image and timing registers, the palette, the
parameters. -/
def Obligations.NoCommandWritesItsInputs : Prop :=
  ∀ (i : Instr) (s t : State), exec i s = .next t → InputsKept s t

/-- R15, R16, R19: RES is written by ten commands only, LEN and DST by SPRITE and SCREEN only, PAL_HW and PAL_FW by PALCONV
only. -/
def Obligations.EachOutputHasItsWriters : Prop :=
  ∀ (i : Instr) (s t : State), exec i s = .next t →
    (writesRes i = false → t.res = s.res) ∧
    (writesLen i = false → t.len = s.len ∧ t.dst = s.dst) ∧
    (i ≠ .palconv → t.palHw = s.palHw ∧ t.palFw = s.palFw)

/-- R184, R186, R182: a command that records a fault changes nothing else, and the code is one the command can raise. -/
def Obligations.FaultingCommandsChangeOnlyStatus : Prop :=
  ∀ (i : Instr) (s t : State), s.statusFault = 0 → exec i s = .next t →
    t.statusFault = 0 ∨ (t = { s with statusFault := t.statusFault } ∧ t.statusFault ∈ mayRaise i)

/-- R52, R186: every command of every state completes or faults, and either is a next state. -/
def Obligations.EveryCommandTerminates : Prop := ∀ (i : Instr) (s : State), ∃ t, exec i s = .next t

/-- R47: every command is idempotent: issued again it leaves every byte of DST, LEN and every other register as they are. -/
def Obligations.CommandsAreIdempotent : Prop :=
  ∀ (i : Instr) (s t : State), exec i s = .next t →
    ∃ d, exec i t = .next { t with dst := d } ∧ ∀ a, { t with dst := d }.memRead .dst a = t.memRead .dst a

/-- R156: CRTC_R0, CRTC_R12 and CRTC_R13 have no influence on any command. -/
def Obligations.UnusedTimingRegistersHaveNoInfluence : Prop :=
  ∀ (i : Instr) (s t : State) (a b c : BitVec 8), exec i s = .next t →
    exec i { s with crtcR0 := a, crtcR12 := b, crtcR13 := c } = .next { t with crtcR0 := a, crtcR12 := b, crtcR13 := c }

/-- R41, R143(f), R47: SPRITE and SCREEN read only SRC[0, W × H): two states with the same registers and the same bytes there
get the same DST[0, L), LEN and fault. -/
def Obligations.OnlyTheImageIsRead : Prop :=
  ∀ (i : Instr) (s u : State) (m : Memory), (∀ a < s.imgW.toNat * s.imgH.toNat, { s with src := m }.memRead .src a = s.memRead .src a) →
    exec i s = .next u → exec i { s with src := m } = .next { u with src := m }

/-- R48, R98, R130, R160, R161, R162: the inputs the rules list for each command are none of RES, LEN, PAL_HW, PAL_FW and DST,
and SPRITE and SCREEN clear what they OR into (R47): with any other values there a command records the same fault, or gives the
same RES, palette outputs, or LEN and DST[0, LEN). -/
def Obligations.CommandsReadNoEarlierOutput : Prop :=
  ∀ (i : Instr) (s t : State) (res len : Word) (hw fw : Vector Byte 16) (d : Memory), exec i s = .next t →
    ∃ u, exec i { s with res := res, len := len, palHw := hw, palFw := fw, dst := d } = .next u ∧
      u.statusFault = t.statusFault ∧
      (s.statusFault = 0 → t.statusFault = 0 →
        (writesRes i = true → u.res = t.res) ∧
        (i = .palconv → u.palHw = t.palHw ∧ u.palFw = t.palFw) ∧
        (writesLen i = true → u.len = t.len ∧ ∀ a < t.len.toNat, u.memRead .dst a = t.memRead .dst a))

/-- R204: with the reset values PALCONV succeeds and leaves zeros, ROWADDR and ATSIZE raise OutOfRange, SPRITE and SCREEN
InvalidDimensions (SPRITE with a sentinel its mode admits). -/
def Obligations.CommandsOnResetValues : Prop :=
  ∀ s : State, RegistersZero s →
    exec .palconv s = .next s ∧
    (∀ y, Raises (.rowaddr y) s 3) ∧
    Raises .atsize s 3 ∧
    (∀ (mf : ModeField) (m : Mode) (t : Nat) (oobm io im : Bool), mf.mode = some m → (io = true → t ≤ m.maxc) →
      Raises (.sprite mf t oobm io im) s 2) ∧
    (∀ (mf : ModeField) (m : Mode), mf.mode = some m → Raises (.screen mf) s 2)

/-! ## The invariant -/

/-- The invariant of Safety.lean holds after power-on. -/
def Obligations.InvariantHoldsAtReset : Prop := Inv State.reset

/-- Every step keeps the invariant: valid parameters (R92, R113), memories in canonical form and inside their sizes (R40), no
code above 5 in STATUS.FAULT (R181), LEN at most DST_SIZE (R16), firmware indices below 27 (R92d). -/
def Obligations.StepKeepsTheInvariant : Prop := ∀ s t : State, Inv s → step s = .next t → Inv t
end

