-- ==== Sys2Proof/Laws/State.lean ====
section
/-! SUPPORT. One lemma per field per update of State: what each shared update of Machine/Ops.lean and Machine/HostPort.lean
leaves in every field, so that no later proof unfolds a record update. -/

namespace Sys2Proof.Machine

namespace State

variable (s : State)

/-! ### raise -/

@[simp] theorem raise_statusFault (f : FaultCode) : (s.raise f).statusFault = f.code := rfl
@[simp] theorem raise_res (f : FaultCode) : (s.raise f).res = s.res := rfl
@[simp] theorem raise_len (f : FaultCode) : (s.raise f).len = s.len := rfl
@[simp] theorem raise_imgW (f : FaultCode) : (s.raise f).imgW = s.imgW := rfl
@[simp] theorem raise_imgH (f : FaultCode) : (s.raise f).imgH = s.imgH := rfl
@[simp] theorem raise_palCount (f : FaultCode) : (s.raise f).palCount = s.palCount := rfl
@[simp] theorem raise_crtcR0 (f : FaultCode) : (s.raise f).crtcR0 = s.crtcR0 := rfl
@[simp] theorem raise_crtcR1 (f : FaultCode) : (s.raise f).crtcR1 = s.crtcR1 := rfl
@[simp] theorem raise_crtcR6 (f : FaultCode) : (s.raise f).crtcR6 = s.crtcR6 := rfl
@[simp] theorem raise_crtcR9 (f : FaultCode) : (s.raise f).crtcR9 = s.crtcR9 := rfl
@[simp] theorem raise_crtcR12 (f : FaultCode) : (s.raise f).crtcR12 = s.crtcR12 := rfl
@[simp] theorem raise_crtcR13 (f : FaultCode) : (s.raise f).crtcR13 = s.crtcR13 := rfl
@[simp] theorem raise_palRgb (f : FaultCode) : (s.raise f).palRgb = s.palRgb := rfl
@[simp] theorem raise_palHw (f : FaultCode) : (s.raise f).palHw = s.palHw := rfl
@[simp] theorem raise_palFw (f : FaultCode) : (s.raise f).palFw = s.palFw := rfl
@[simp] theorem raise_src (f : FaultCode) : (s.raise f).src = s.src := rfl
@[simp] theorem raise_dst (f : FaultCode) : (s.raise f).dst = s.dst := rfl
@[simp] theorem raise_params (f : FaultCode) : (s.raise f).params = s.params := rfl
@[simp] theorem raise_pending (f : FaultCode) : (s.raise f).pending = s.pending := rfl
@[simp] theorem raise_replies (f : FaultCode) : (s.raise f).replies = s.replies := rfl

/-! ### setRes -/

@[simp] theorem setRes_statusFault (v : Nat) : (s.setRes v).statusFault = s.statusFault := rfl
@[simp] theorem setRes_res (v : Nat) : (s.setRes v).res = BitVec.ofNat 32 v := rfl
@[simp] theorem setRes_len (v : Nat) : (s.setRes v).len = s.len := rfl
@[simp] theorem setRes_imgW (v : Nat) : (s.setRes v).imgW = s.imgW := rfl
@[simp] theorem setRes_imgH (v : Nat) : (s.setRes v).imgH = s.imgH := rfl
@[simp] theorem setRes_palCount (v : Nat) : (s.setRes v).palCount = s.palCount := rfl
@[simp] theorem setRes_crtcR0 (v : Nat) : (s.setRes v).crtcR0 = s.crtcR0 := rfl
@[simp] theorem setRes_crtcR1 (v : Nat) : (s.setRes v).crtcR1 = s.crtcR1 := rfl
@[simp] theorem setRes_crtcR6 (v : Nat) : (s.setRes v).crtcR6 = s.crtcR6 := rfl
@[simp] theorem setRes_crtcR9 (v : Nat) : (s.setRes v).crtcR9 = s.crtcR9 := rfl
@[simp] theorem setRes_crtcR12 (v : Nat) : (s.setRes v).crtcR12 = s.crtcR12 := rfl
@[simp] theorem setRes_crtcR13 (v : Nat) : (s.setRes v).crtcR13 = s.crtcR13 := rfl
@[simp] theorem setRes_palRgb (v : Nat) : (s.setRes v).palRgb = s.palRgb := rfl
@[simp] theorem setRes_palHw (v : Nat) : (s.setRes v).palHw = s.palHw := rfl
@[simp] theorem setRes_palFw (v : Nat) : (s.setRes v).palFw = s.palFw := rfl
@[simp] theorem setRes_src (v : Nat) : (s.setRes v).src = s.src := rfl
@[simp] theorem setRes_dst (v : Nat) : (s.setRes v).dst = s.dst := rfl
@[simp] theorem setRes_params (v : Nat) : (s.setRes v).params = s.params := rfl
@[simp] theorem setRes_pending (v : Nat) : (s.setRes v).pending = s.pending := rfl
@[simp] theorem setRes_replies (v : Nat) : (s.setRes v).replies = s.replies := rfl

/-! ### pack -/

@[simp] theorem pack_statusFault (n : Nat) (ws : List (Nat × Byte)) : (s.pack n ws).statusFault = s.statusFault := rfl
@[simp] theorem pack_res (n : Nat) (ws : List (Nat × Byte)) : (s.pack n ws).res = s.res := rfl
@[simp] theorem pack_len (n : Nat) (ws : List (Nat × Byte)) : (s.pack n ws).len = BitVec.ofNat 32 n := rfl
@[simp] theorem pack_imgW (n : Nat) (ws : List (Nat × Byte)) : (s.pack n ws).imgW = s.imgW := rfl
@[simp] theorem pack_imgH (n : Nat) (ws : List (Nat × Byte)) : (s.pack n ws).imgH = s.imgH := rfl
@[simp] theorem pack_palCount (n : Nat) (ws : List (Nat × Byte)) : (s.pack n ws).palCount = s.palCount := rfl
@[simp] theorem pack_crtcR0 (n : Nat) (ws : List (Nat × Byte)) : (s.pack n ws).crtcR0 = s.crtcR0 := rfl
@[simp] theorem pack_crtcR1 (n : Nat) (ws : List (Nat × Byte)) : (s.pack n ws).crtcR1 = s.crtcR1 := rfl
@[simp] theorem pack_crtcR6 (n : Nat) (ws : List (Nat × Byte)) : (s.pack n ws).crtcR6 = s.crtcR6 := rfl
@[simp] theorem pack_crtcR9 (n : Nat) (ws : List (Nat × Byte)) : (s.pack n ws).crtcR9 = s.crtcR9 := rfl
@[simp] theorem pack_crtcR12 (n : Nat) (ws : List (Nat × Byte)) : (s.pack n ws).crtcR12 = s.crtcR12 := rfl
@[simp] theorem pack_crtcR13 (n : Nat) (ws : List (Nat × Byte)) : (s.pack n ws).crtcR13 = s.crtcR13 := rfl
@[simp] theorem pack_palRgb (n : Nat) (ws : List (Nat × Byte)) : (s.pack n ws).palRgb = s.palRgb := rfl
@[simp] theorem pack_palHw (n : Nat) (ws : List (Nat × Byte)) : (s.pack n ws).palHw = s.palHw := rfl
@[simp] theorem pack_palFw (n : Nat) (ws : List (Nat × Byte)) : (s.pack n ws).palFw = s.palFw := rfl
@[simp] theorem pack_src (n : Nat) (ws : List (Nat × Byte)) : (s.pack n ws).src = s.src := rfl
@[simp] theorem pack_dst (n : Nat) (ws : List (Nat × Byte)) : (s.pack n ws).dst = (s.dst.clear n).orAll ws := rfl
@[simp] theorem pack_params (n : Nat) (ws : List (Nat × Byte)) : (s.pack n ws).params = s.params := rfl
@[simp] theorem pack_pending (n : Nat) (ws : List (Nat × Byte)) : (s.pack n ws).pending = s.pending := rfl
@[simp] theorem pack_replies (n : Nat) (ws : List (Nat × Byte)) : (s.pack n ws).replies = s.replies := rfl

/-! ### reply -/

@[simp] theorem reply_statusFault (r : Reply) : (s.reply r).statusFault = s.statusFault := rfl
@[simp] theorem reply_res (r : Reply) : (s.reply r).res = s.res := rfl
@[simp] theorem reply_len (r : Reply) : (s.reply r).len = s.len := rfl
@[simp] theorem reply_imgW (r : Reply) : (s.reply r).imgW = s.imgW := rfl
@[simp] theorem reply_imgH (r : Reply) : (s.reply r).imgH = s.imgH := rfl
@[simp] theorem reply_palCount (r : Reply) : (s.reply r).palCount = s.palCount := rfl
@[simp] theorem reply_crtcR0 (r : Reply) : (s.reply r).crtcR0 = s.crtcR0 := rfl
@[simp] theorem reply_crtcR1 (r : Reply) : (s.reply r).crtcR1 = s.crtcR1 := rfl
@[simp] theorem reply_crtcR6 (r : Reply) : (s.reply r).crtcR6 = s.crtcR6 := rfl
@[simp] theorem reply_crtcR9 (r : Reply) : (s.reply r).crtcR9 = s.crtcR9 := rfl
@[simp] theorem reply_crtcR12 (r : Reply) : (s.reply r).crtcR12 = s.crtcR12 := rfl
@[simp] theorem reply_crtcR13 (r : Reply) : (s.reply r).crtcR13 = s.crtcR13 := rfl
@[simp] theorem reply_palRgb (r : Reply) : (s.reply r).palRgb = s.palRgb := rfl
@[simp] theorem reply_palHw (r : Reply) : (s.reply r).palHw = s.palHw := rfl
@[simp] theorem reply_palFw (r : Reply) : (s.reply r).palFw = s.palFw := rfl
@[simp] theorem reply_src (r : Reply) : (s.reply r).src = s.src := rfl
@[simp] theorem reply_dst (r : Reply) : (s.reply r).dst = s.dst := rfl
@[simp] theorem reply_params (r : Reply) : (s.reply r).params = s.params := rfl
@[simp] theorem reply_pending (r : Reply) : (s.reply r).pending = s.pending := rfl
@[simp] theorem reply_replies (r : Reply) : (s.reply r).replies = r :: s.replies := rfl

/-! ### resetBlock -/

@[simp] theorem resetBlock_statusFault : (s.resetBlock).statusFault = 0 := rfl
@[simp] theorem resetBlock_res : (s.resetBlock).res = 0 := rfl
@[simp] theorem resetBlock_len : (s.resetBlock).len = 0 := rfl
@[simp] theorem resetBlock_imgW : (s.resetBlock).imgW = 0 := rfl
@[simp] theorem resetBlock_imgH : (s.resetBlock).imgH = 0 := rfl
@[simp] theorem resetBlock_palCount : (s.resetBlock).palCount = 0 := rfl
@[simp] theorem resetBlock_crtcR0 : (s.resetBlock).crtcR0 = 0 := rfl
@[simp] theorem resetBlock_crtcR1 : (s.resetBlock).crtcR1 = 0 := rfl
@[simp] theorem resetBlock_crtcR6 : (s.resetBlock).crtcR6 = 0 := rfl
@[simp] theorem resetBlock_crtcR9 : (s.resetBlock).crtcR9 = 0 := rfl
@[simp] theorem resetBlock_crtcR12 : (s.resetBlock).crtcR12 = 0 := rfl
@[simp] theorem resetBlock_crtcR13 : (s.resetBlock).crtcR13 = 0 := rfl
@[simp] theorem resetBlock_palRgb : (s.resetBlock).palRgb = Vector.replicate 16 0 := rfl
@[simp] theorem resetBlock_palHw : (s.resetBlock).palHw = Vector.replicate 16 0 := rfl
@[simp] theorem resetBlock_palFw : (s.resetBlock).palFw = Vector.replicate 16 0 := rfl
@[simp] theorem resetBlock_src : (s.resetBlock).src = s.src := rfl
@[simp] theorem resetBlock_dst : (s.resetBlock).dst = s.dst := rfl
@[simp] theorem resetBlock_params : (s.resetBlock).params = s.params := rfl
@[simp] theorem resetBlock_pending : (s.resetBlock).pending = s.pending := rfl
@[simp] theorem resetBlock_replies : (s.resetBlock).replies = s.replies := rfl

/-! ### withCommand -/

@[simp] theorem withCommand_statusFault (w : Word) : (s.withCommand w).statusFault = s.statusFault := rfl
@[simp] theorem withCommand_res (w : Word) : (s.withCommand w).res = s.res := rfl
@[simp] theorem withCommand_len (w : Word) : (s.withCommand w).len = s.len := rfl
@[simp] theorem withCommand_imgW (w : Word) : (s.withCommand w).imgW = s.imgW := rfl
@[simp] theorem withCommand_imgH (w : Word) : (s.withCommand w).imgH = s.imgH := rfl
@[simp] theorem withCommand_palCount (w : Word) : (s.withCommand w).palCount = s.palCount := rfl
@[simp] theorem withCommand_crtcR0 (w : Word) : (s.withCommand w).crtcR0 = s.crtcR0 := rfl
@[simp] theorem withCommand_crtcR1 (w : Word) : (s.withCommand w).crtcR1 = s.crtcR1 := rfl
@[simp] theorem withCommand_crtcR6 (w : Word) : (s.withCommand w).crtcR6 = s.crtcR6 := rfl
@[simp] theorem withCommand_crtcR9 (w : Word) : (s.withCommand w).crtcR9 = s.crtcR9 := rfl
@[simp] theorem withCommand_crtcR12 (w : Word) : (s.withCommand w).crtcR12 = s.crtcR12 := rfl
@[simp] theorem withCommand_crtcR13 (w : Word) : (s.withCommand w).crtcR13 = s.crtcR13 := rfl
@[simp] theorem withCommand_palRgb (w : Word) : (s.withCommand w).palRgb = s.palRgb := rfl
@[simp] theorem withCommand_palHw (w : Word) : (s.withCommand w).palHw = s.palHw := rfl
@[simp] theorem withCommand_palFw (w : Word) : (s.withCommand w).palFw = s.palFw := rfl
@[simp] theorem withCommand_src (w : Word) : (s.withCommand w).src = s.src := rfl
@[simp] theorem withCommand_dst (w : Word) : (s.withCommand w).dst = s.dst := rfl
@[simp] theorem withCommand_params (w : Word) : (s.withCommand w).params = s.params := rfl
@[simp] theorem withCommand_pending (w : Word) : (s.withCommand w).pending = .writeReg 0 w :: s.pending := rfl
@[simp] theorem withCommand_replies (w : Word) : (s.withCommand w).replies = s.replies := rfl

/-! ### memWrite .src -/

@[simp] theorem memWrite_src_statusFault (a : Nat) (v : Byte) : (s.memWrite .src a v).statusFault = s.statusFault := rfl
@[simp] theorem memWrite_src_res (a : Nat) (v : Byte) : (s.memWrite .src a v).res = s.res := rfl
@[simp] theorem memWrite_src_len (a : Nat) (v : Byte) : (s.memWrite .src a v).len = s.len := rfl
@[simp] theorem memWrite_src_imgW (a : Nat) (v : Byte) : (s.memWrite .src a v).imgW = s.imgW := rfl
@[simp] theorem memWrite_src_imgH (a : Nat) (v : Byte) : (s.memWrite .src a v).imgH = s.imgH := rfl
@[simp] theorem memWrite_src_palCount (a : Nat) (v : Byte) : (s.memWrite .src a v).palCount = s.palCount := rfl
@[simp] theorem memWrite_src_crtcR0 (a : Nat) (v : Byte) : (s.memWrite .src a v).crtcR0 = s.crtcR0 := rfl
@[simp] theorem memWrite_src_crtcR1 (a : Nat) (v : Byte) : (s.memWrite .src a v).crtcR1 = s.crtcR1 := rfl
@[simp] theorem memWrite_src_crtcR6 (a : Nat) (v : Byte) : (s.memWrite .src a v).crtcR6 = s.crtcR6 := rfl
@[simp] theorem memWrite_src_crtcR9 (a : Nat) (v : Byte) : (s.memWrite .src a v).crtcR9 = s.crtcR9 := rfl
@[simp] theorem memWrite_src_crtcR12 (a : Nat) (v : Byte) : (s.memWrite .src a v).crtcR12 = s.crtcR12 := rfl
@[simp] theorem memWrite_src_crtcR13 (a : Nat) (v : Byte) : (s.memWrite .src a v).crtcR13 = s.crtcR13 := rfl
@[simp] theorem memWrite_src_palRgb (a : Nat) (v : Byte) : (s.memWrite .src a v).palRgb = s.palRgb := rfl
@[simp] theorem memWrite_src_palHw (a : Nat) (v : Byte) : (s.memWrite .src a v).palHw = s.palHw := rfl
@[simp] theorem memWrite_src_palFw (a : Nat) (v : Byte) : (s.memWrite .src a v).palFw = s.palFw := rfl
@[simp] theorem memWrite_src_src (a : Nat) (v : Byte) : (s.memWrite .src a v).src = s.src.write a v := rfl
@[simp] theorem memWrite_src_dst (a : Nat) (v : Byte) : (s.memWrite .src a v).dst = s.dst := rfl
@[simp] theorem memWrite_src_params (a : Nat) (v : Byte) : (s.memWrite .src a v).params = s.params := rfl
@[simp] theorem memWrite_src_pending (a : Nat) (v : Byte) : (s.memWrite .src a v).pending = s.pending := rfl
@[simp] theorem memWrite_src_replies (a : Nat) (v : Byte) : (s.memWrite .src a v).replies = s.replies := rfl

/-! ### memWrite .dst -/

@[simp] theorem memWrite_dst_statusFault (a : Nat) (v : Byte) : (s.memWrite .dst a v).statusFault = s.statusFault := rfl
@[simp] theorem memWrite_dst_res (a : Nat) (v : Byte) : (s.memWrite .dst a v).res = s.res := rfl
@[simp] theorem memWrite_dst_len (a : Nat) (v : Byte) : (s.memWrite .dst a v).len = s.len := rfl
@[simp] theorem memWrite_dst_imgW (a : Nat) (v : Byte) : (s.memWrite .dst a v).imgW = s.imgW := rfl
@[simp] theorem memWrite_dst_imgH (a : Nat) (v : Byte) : (s.memWrite .dst a v).imgH = s.imgH := rfl
@[simp] theorem memWrite_dst_palCount (a : Nat) (v : Byte) : (s.memWrite .dst a v).palCount = s.palCount := rfl
@[simp] theorem memWrite_dst_crtcR0 (a : Nat) (v : Byte) : (s.memWrite .dst a v).crtcR0 = s.crtcR0 := rfl
@[simp] theorem memWrite_dst_crtcR1 (a : Nat) (v : Byte) : (s.memWrite .dst a v).crtcR1 = s.crtcR1 := rfl
@[simp] theorem memWrite_dst_crtcR6 (a : Nat) (v : Byte) : (s.memWrite .dst a v).crtcR6 = s.crtcR6 := rfl
@[simp] theorem memWrite_dst_crtcR9 (a : Nat) (v : Byte) : (s.memWrite .dst a v).crtcR9 = s.crtcR9 := rfl
@[simp] theorem memWrite_dst_crtcR12 (a : Nat) (v : Byte) : (s.memWrite .dst a v).crtcR12 = s.crtcR12 := rfl
@[simp] theorem memWrite_dst_crtcR13 (a : Nat) (v : Byte) : (s.memWrite .dst a v).crtcR13 = s.crtcR13 := rfl
@[simp] theorem memWrite_dst_palRgb (a : Nat) (v : Byte) : (s.memWrite .dst a v).palRgb = s.palRgb := rfl
@[simp] theorem memWrite_dst_palHw (a : Nat) (v : Byte) : (s.memWrite .dst a v).palHw = s.palHw := rfl
@[simp] theorem memWrite_dst_palFw (a : Nat) (v : Byte) : (s.memWrite .dst a v).palFw = s.palFw := rfl
@[simp] theorem memWrite_dst_src (a : Nat) (v : Byte) : (s.memWrite .dst a v).src = s.src := rfl
@[simp] theorem memWrite_dst_dst (a : Nat) (v : Byte) : (s.memWrite .dst a v).dst = s.dst.write a v := rfl
@[simp] theorem memWrite_dst_params (a : Nat) (v : Byte) : (s.memWrite .dst a v).params = s.params := rfl
@[simp] theorem memWrite_dst_pending (a : Nat) (v : Byte) : (s.memWrite .dst a v).pending = s.pending := rfl
@[simp] theorem memWrite_dst_replies (a : Nat) (v : Byte) : (s.memWrite .dst a v).replies = s.replies := rfl

/-! ### palconvRun -/

@[simp] theorem palconvRun_statusFault : (palconvRun s).statusFault = s.statusFault := rfl
@[simp] theorem palconvRun_res : (palconvRun s).res = s.res := rfl
@[simp] theorem palconvRun_len : (palconvRun s).len = s.len := rfl
@[simp] theorem palconvRun_imgW : (palconvRun s).imgW = s.imgW := rfl
@[simp] theorem palconvRun_imgH : (palconvRun s).imgH = s.imgH := rfl
@[simp] theorem palconvRun_palCount : (palconvRun s).palCount = s.palCount := rfl
@[simp] theorem palconvRun_crtcR0 : (palconvRun s).crtcR0 = s.crtcR0 := rfl
@[simp] theorem palconvRun_crtcR1 : (palconvRun s).crtcR1 = s.crtcR1 := rfl
@[simp] theorem palconvRun_crtcR6 : (palconvRun s).crtcR6 = s.crtcR6 := rfl
@[simp] theorem palconvRun_crtcR9 : (palconvRun s).crtcR9 = s.crtcR9 := rfl
@[simp] theorem palconvRun_crtcR12 : (palconvRun s).crtcR12 = s.crtcR12 := rfl
@[simp] theorem palconvRun_crtcR13 : (palconvRun s).crtcR13 = s.crtcR13 := rfl
@[simp] theorem palconvRun_palRgb : (palconvRun s).palRgb = s.palRgb := rfl
@[simp] theorem palconvRun_palHw : (palconvRun s).palHw = Vector.ofFn (palconvSlot s fun found => found.2.hw) := rfl
@[simp] theorem palconvRun_palFw : (palconvRun s).palFw = Vector.ofFn (palconvSlot s fun found => BitVec.ofNat 8 found.1) := rfl
@[simp] theorem palconvRun_src : (palconvRun s).src = s.src := rfl
@[simp] theorem palconvRun_dst : (palconvRun s).dst = s.dst := rfl
@[simp] theorem palconvRun_params : (palconvRun s).params = s.params := rfl
@[simp] theorem palconvRun_pending : (palconvRun s).pending = s.pending := rfl
@[simp] theorem palconvRun_replies : (palconvRun s).replies = s.replies := rfl

/-! ### portWrite: the fields no port write reaches, and the others -/

@[simp] theorem portWrite_statusFault (v : Word) (r : Reg) : (s.portWrite v r).statusFault = s.statusFault := by cases r <;> rfl
@[simp] theorem portWrite_res (v : Word) (r : Reg) : (s.portWrite v r).res = s.res := by cases r <;> rfl
@[simp] theorem portWrite_len (v : Word) (r : Reg) : (s.portWrite v r).len = s.len := by cases r <;> rfl
@[simp] theorem portWrite_palHw (v : Word) (r : Reg) : (s.portWrite v r).palHw = s.palHw := by cases r <;> rfl
@[simp] theorem portWrite_palFw (v : Word) (r : Reg) : (s.portWrite v r).palFw = s.palFw := by cases r <;> rfl
@[simp] theorem portWrite_src (v : Word) (r : Reg) : (s.portWrite v r).src = s.src := by cases r <;> rfl
@[simp] theorem portWrite_dst (v : Word) (r : Reg) : (s.portWrite v r).dst = s.dst := by cases r <;> rfl
@[simp] theorem portWrite_params (v : Word) (r : Reg) : (s.portWrite v r).params = s.params := by cases r <;> rfl
@[simp] theorem portWrite_pending (v : Word) (r : Reg) : (s.portWrite v r).pending = s.pending := by cases r <;> rfl
@[simp] theorem portWrite_replies (v : Word) (r : Reg) : (s.portWrite v r).replies = s.replies := by cases r <;> rfl

end State

end Sys2Proof.Machine
end

