-- ==== Sys2Proof/Laws/Memory.lean ====
section
/-! SUPPORT. The laws of the byte memories: read after write, the canonical form kept by every memory operation, and what
clear-then-OR leaves in every byte (spec/20_memory.md R47). -/

namespace Sys2Proof.Machine

open Config (Space)

namespace Memory

/-! ## Reading after writing -/

@[simp] theorem lookup_nil (a : Nat) : Memory.lookup [] a = none := rfl

/-- What every byte is after a write. -/
theorem lookup_write (m : Memory) (a b : Nat) (v : Byte) :
    (m.write a v).lookup b = if a = b then some v else m.lookup b := by
  induction m with
  | nil => simp [Memory.write, Memory.lookup]
  | cons c m ih =>
    obtain ⟨d, u⟩ := c
    unfold Memory.write
    split
    · simp [Memory.lookup]
    · split
      · subst_vars; by_cases h : d = b <;> simp [Memory.lookup, h]
      · by_cases h : d = b
        · subst h; simp [Memory.lookup]; omega
        · simp [Memory.lookup, h, ih]

/-- What every byte reads as after a write. -/
theorem read_write (sp : Space) (m : Memory) (a b : Nat) (v : Byte) :
    Memory.read sp (m.write a v) b = if a = b then v else Memory.read sp m b := by
  unfold Memory.read; rw [lookup_write]; split <;> rfl

@[simp] theorem read_write_same (sp : Space) (m : Memory) (a : Nat) (v : Byte) :
    Memory.read sp (m.write a v) a = v := by simp [read_write]

theorem read_write_other (sp : Space) (m : Memory) {a b : Nat} (v : Byte) (h : a ≠ b) :
    Memory.read sp (m.write a v) b = Memory.read sp m b := by simp [read_write, h]

/-! ## The canonical form -/

theorem risesFrom_mono {a b : Nat} (h : a ≤ b) : ∀ {m : Memory}, risesFrom b m = true → risesFrom a m = true
  | [], _ => rfl
  | (c, _) :: _, hm => by
    simp only [risesFrom, Bool.and_eq_true, decide_eq_true_eq] at hm ⊢
    exact ⟨by omega, hm.2⟩

theorem risesFrom_write {b a : Nat} (v : Byte) (hb : b ≤ a) :
    ∀ {m : Memory}, risesFrom b m = true → risesFrom b (m.write a v) = true := by
  intro m
  induction m generalizing b with
  | nil => intro _; simp [Memory.write, risesFrom, hb]
  | cons c m ih =>
    obtain ⟨d, u⟩ := c
    intro hm
    simp only [risesFrom, Bool.and_eq_true, decide_eq_true_eq] at hm
    unfold Memory.write
    split
    · simp only [risesFrom, Bool.and_eq_true, decide_eq_true_eq]
      exact ⟨hb, by omega, hm.2⟩
    · split
      · subst_vars; simp only [risesFrom, Bool.and_eq_true, decide_eq_true_eq]; exact hm
      · simp only [risesFrom, Bool.and_eq_true, decide_eq_true_eq]
        exact ⟨hm.1, ih (by omega) hm.2⟩

theorem mem_write {m : Memory} {a : Nat} {v : Byte} {c : Host.Cell} (h : c ∈ m.write a v) : c = (a, v) ∨ c ∈ m := by
  induction m with
  | nil => simpa [Memory.write] using h
  | cons d m ih =>
    obtain ⟨b, u⟩ := d
    unfold Memory.write at h
    split at h
    · simpa using h
    · split at h
      · rcases List.mem_cons.1 h with h | h
        · exact .inl h
        · exact .inr (List.mem_cons_of_mem _ h)
      · rcases List.mem_cons.1 h with h | h
        · exact .inr (h ▸ List.mem_cons_self)
        · exact (ih h).imp id (List.mem_cons_of_mem _)

@[simp] theorem wf_nil (n : Nat) : wf n [] = true := rfl

/-- A write inside the space keeps the canonical form. -/
theorem wf_write {n : Nat} {m : Memory} (hm : m.wf n = true) {a : Nat} (ha : a < n) (v : Byte) :
    (m.write a v).wf n = true := by
  simp only [wf, Bool.and_eq_true, List.all_eq_true, decide_eq_true_eq] at hm ⊢
  refine ⟨risesFrom_write v (Nat.zero_le a) hm.1, fun c hc => ?_⟩
  rcases mem_write hc with rfl | h
  · exact ha
  · exact hm.2 c h

/-! ## Clear, then OR -/

theorem clear_succ (m : Memory) (n : Nat) : m.clear (n + 1) = (m.clear n).write n 0 := by
  simp [Memory.clear, List.range_succ]

/-- What every byte reads as after the clearing of R47(b). -/
theorem read_clear (sp : Space) (m : Memory) (n a : Nat) :
    Memory.read sp (m.clear n) a = if a < n then 0 else Memory.read sp m a := by
  induction n with
  | zero => simp [Memory.clear]
  | succ n ih =>
    rw [clear_succ, read_write, ih]
    by_cases h : n = a
    · subst h; simp
    · by_cases h2 : a < n
      · simp [h, h2, Nat.lt_succ_of_lt h2]
      · simp [h, h2, show ¬ a < n + 1 by omega]

theorem wf_clear {size : Nat} {m : Memory} (hm : m.wf size = true) {n : Nat} (h : n ≤ size) :
    (m.clear n).wf size = true := by
  induction n with
  | zero => simpa [Memory.clear] using hm
  | succ n ih => rw [clear_succ]; exact wf_write (ih (by omega)) (by omega) 0

/-- The OR of the fragments that go to address `a`. -/
def gather (ws : List (Nat × Byte)) (a : Nat) : Byte :=
  ws.foldr (fun w v => if w.1 = a then w.2 ||| v else v) 0

@[simp] theorem gather_nil (a : Nat) : gather [] a = 0 := rfl

@[simp] theorem gather_cons (w : Nat × Byte) (ws : List (Nat × Byte)) (a : Nat) :
    gather (w :: ws) a = if w.1 = a then w.2 ||| gather ws a else gather ws a := rfl

theorem gather_append (ws vs : List (Nat × Byte)) (a : Nat) :
    gather (ws ++ vs) a = gather ws a ||| gather vs a := by
  induction ws with
  | nil => simp
  | cons w ws ih =>
    simp only [List.cons_append, gather_cons, ih]
    split
    · rw [BitVec.or_assoc]
    · rfl

@[simp] theorem orAll_nil (m : Memory) : m.orAll [] = m := rfl

theorem orAll_cons (m : Memory) (w : Nat × Byte) (ws : List (Nat × Byte)) :
    m.orAll (w :: ws) = (m.write w.1 (m.read .dst w.1 ||| w.2)).orAll ws := rfl

/-- Everything the ORs of R47(c) do: each byte is what it was ORed with the fragments that go to it. -/
theorem read_orAll (m : Memory) (ws : List (Nat × Byte)) (a : Nat) :
    Memory.read .dst (m.orAll ws) a = Memory.read .dst m a ||| gather ws a := by
  induction ws generalizing m with
  | nil => simp
  | cons w ws ih =>
    rw [orAll_cons, ih, read_write, gather_cons]
    split
    · next h => subst h; rw [BitVec.or_assoc]
    · rfl

/-- A bit of the gathered fragments is a bit of one of them. -/
theorem getLsbD_gather (ws : List (Nat × Byte)) (a n : Nat) :
    (gather ws a).getLsbD n = true ↔ ∃ w ∈ ws, w.1 = a ∧ w.2.getLsbD n = true := by
  induction ws with
  | nil => simp
  | cons w ws ih =>
    rw [gather_cons]
    split
    · next h => simp [ih, h]
    · next h => simp [ih, h]

/-- No fragment goes to an address outside the written ones. -/
theorem gather_eq_zero {ws : List (Nat × Byte)} {a : Nat} (h : ∀ w ∈ ws, w.1 ≠ a) : gather ws a = 0 := by
  induction ws with
  | nil => rfl
  | cons w ws ih =>
    rw [gather_cons, if_neg (h w List.mem_cons_self)]
    exact ih fun v hv => h v (List.mem_cons_of_mem _ hv)

theorem wf_orAll {size : Nat} {m : Memory} (hm : m.wf size = true) {ws : List (Nat × Byte)}
    (h : ∀ w ∈ ws, w.1 < size) : (m.orAll ws).wf size = true := by
  induction ws generalizing m with
  | nil => exact hm
  | cons w ws ih =>
    rw [orAll_cons]
    exact ih (wf_write hm (h w List.mem_cons_self) _) fun v hv => h v (List.mem_cons_of_mem _ hv)

end Memory

namespace State

@[simp] theorem mem_src (s : State) : s.mem .src = s.src := rfl
@[simp] theorem mem_dst (s : State) : s.mem .dst = s.dst := rfl
@[simp] theorem sizeOf_src (s : State) : s.sizeOf .src = s.params.srcSize := rfl
@[simp] theorem sizeOf_dst (s : State) : s.sizeOf .dst = s.params.dstSize := rfl

theorem memRead_src (s : State) (a : Nat) : s.memRead .src a = Memory.read .src s.src a := rfl
theorem memRead_dst (s : State) (a : Nat) : s.memRead .dst a = Memory.read .dst s.dst a := rfl

/-- A byte written is the byte read, and no other byte of either space changes. -/
theorem memRead_memWrite (s : State) (sp sp' : Space) (a b : Nat) (v : Byte) :
    (s.memWrite sp a v).memRead sp' b = if sp = sp' ∧ a = b then v else s.memRead sp' b := by
  cases sp <;> cases sp' <;> simp [memRead, memWrite, mem, Memory.read_write]

/-- Everything the execute phase of SPRITE and SCREEN does to a byte of DST (R47): below the length, the OR of the fragments
that go there; at or above it, with no fragment there, nothing. -/
theorem memRead_pack (s : State) (n : Nat) (ws : List (Nat × Byte)) (a : Nat) :
    (s.pack n ws).memRead .dst a =
      if a < n then Memory.gather ws a else s.memRead .dst a ||| Memory.gather ws a := by
  rw [memRead_dst, pack_dst, Memory.read_orAll, Memory.read_clear]
  split
  · simp
  · rfl

@[simp] theorem memRead_src_pack (s : State) (n : Nat) (ws : List (Nat × Byte)) (a : Nat) :
    (s.pack n ws).memRead .src a = s.memRead .src a := rfl

end State

end Sys2Proof.Machine
end

