-- ==== Sys2Proof/Laws/Pixel.lean ====
section
/-! SUPPORT. The laws of the pixel functions, bit by bit: which bit of a fragment, a mask or a decoded colour is which bit of
the colour or the byte (spec/30_encoding.md R60 to R65), and that the positions of a byte do not meet. -/

namespace Sys2Proof.Machine

open Config (Params)

/-! ## Positions -/

theorem mode0Position_lt (q : Config.Mode0Row) (j : Nat) : mode0Position q j < 8 := by
  unfold mode0Position; split <;> exact Fin.isLt _

/-- A position is a bit number of a byte, for any arguments. -/
theorem pixelPos_lt (p : Params) (m : Mode) (off j : Nat) : pixelPos p m off j < 8 := by
  cases m <;> simp only [pixelPos]
  · exact mode0Position_lt _ _
  · split <;> omega
  · omega

/-- MODE0_POS as the one list of eight positions that R113(a) speaks of. -/
theorem pixelPos_mode0 (p : Params) {off j : Nat} (ho : off < 2) (hj : j < 4) :
    ((p.mode0Off0.toList ++ p.mode0Off1.toList)[off * 4 + j]?).map Fin.val = some (pixelPos p .mode0 off j) := by
  interval_cases off <;> interval_cases j <;> rfl

/-- The eight Mode0 positions are pairwise distinct (R113a). -/
theorem mode0_positions_distinct {p : Params} (hp : p.Valid) {off off' j j' : Nat} (ho : off < 2) (ho' : off' < 2)
    (hj : j < 4) (hj' : j' < 4) (h : pixelPos p .mode0 off j = pixelPos p .mode0 off' j') : off = off' ∧ j = j' := by
  have e := (pixelPos_mode0 p ho hj).trans ((congrArg some h).trans (pixelPos_mode0 p ho' hj').symm)
  have e' := Option.map_injective Fin.val_injective e
  have hlen : off * 4 + j < (p.mode0Off0.toList ++ p.mode0Off1.toList).length := by
    simp [Config.Mode0Row.toList]; omega
  have := (List.getElem?_inj hlen hp.2.2.1).1 e'
  omega

/-- No two (offset, bit) pairs of a mode share a position (R60). -/
theorem pixelPos_inj {p : Params} (hp : p.Valid) {m : Mode} {off off' j j' : Nat} (ho : off < m.ppb) (ho' : off' < m.ppb)
    (hj : j < m.bpp) (hj' : j' < m.bpp) (h : pixelPos p m off j = pixelPos p m off' j') : off = off' ∧ j = j' := by
  cases m with
  | mode0 => exact mode0_positions_distinct hp ho ho' hj hj' h
  | mode1 =>
    simp only [Mode.ppb, Mode.bpp] at ho ho' hj hj'
    simp only [pixelPos] at h
    split at h <;> split at h <;> omega
  | mode2 =>
    simp only [Mode.ppb, Mode.bpp] at ho ho' hj hj'
    simp only [pixelPos] at h
    omega

/-! ## Fragments, masks, decoded colours -/

@[simp] theorem getLsbD_placeBit (b : Bool) {n : Nat} (hn : n < 8) (k : Nat) :
    (placeBit b n).getLsbD k = (b && decide (k = n)) := by
  unfold placeBit
  cases b
  · simp
  · simp only [if_true, Bool.true_and, BitVec.getLsbD_shiftLeft, BitVec.getLsbD_one]
    by_cases h : k = n
    · subst h; simp [hn]
    · simp only [h, decide_false]
      by_cases h2 : k < n
      · simp [h2]
      · have : k - n ≠ 0 := by omega
        simp [this]

theorem getLsbD_foldl_placeBit (f : Nat → Bool) (pos : Nat → Nat) (hpos : ∀ j, pos j < 8) (n k : Nat) :
    ((List.range n).foldl (fun v j => v ||| placeBit (f j) (pos j)) (0 : Byte)).getLsbD k = true ↔
      ∃ j < n, f j = true ∧ pos j = k := by
  induction n with
  | zero => simp
  | succ n ih =>
    rw [List.range_succ, List.foldl_append, List.foldl_cons, List.foldl_nil, BitVec.getLsbD_or, Bool.or_eq_true, ih,
      getLsbD_placeBit _ (hpos n)]
    constructor
    · rintro (⟨j, hj, h⟩ | h)
      · exact ⟨j, by omega, h⟩
      · simp only [Bool.and_eq_true, decide_eq_true_eq] at h
        exact ⟨n, by omega, h.1, h.2.symm⟩
    · rintro ⟨j, hj, h1, h2⟩
      by_cases e : j = n
      · subst e; right; simp [h1, h2]
      · exact .inl ⟨j, by omega, h1, h2⟩

/-- Everything a fragment is (R60): the bits of `c` at their positions and zeros elsewhere. -/
theorem getLsbD_encPixel (p : Params) (m : Mode) (c off k : Nat) :
    (encPixel p m c off).getLsbD k = true ↔ ∃ j < m.bpp, c.testBit j = true ∧ pixelPos p m off j = k :=
  getLsbD_foldl_placeBit _ _ (fun j => pixelPos_lt p m off j) _ _

/-- Everything a mask is (R64): the positions of the pixel. -/
theorem getLsbD_maskPixel (p : Params) (m : Mode) (off k : Nat) :
    (maskPixel p m off).getLsbD k = true ↔ ∃ j < m.bpp, pixelPos p m off j = k := by
  have h := getLsbD_foldl_placeBit (fun _ => true) (pixelPos p m off) (fun j => pixelPos_lt p m off j) m.bpp k
  simpa [maskPixel] using h

theorem testBit_toNat_shiftLeft (b : Bool) (j k : Nat) : (b.toNat <<< j).testBit k = (b && decide (k = j)) := by
  cases b
  · simp
  · by_cases h : k = j
    · subst h; simp [Nat.testBit_shiftLeft]
    · simp only [Bool.toNat_true, Nat.one_shiftLeft, Nat.testBit_two_pow, Bool.true_and, decide_eq_decide]
      exact eq_comm

theorem testBit_foldl_bits (f : Nat → Bool) (n k : Nat) :
    ((List.range n).foldl (fun c j => c ||| ((f j).toNat <<< j)) 0).testBit k = (decide (k < n) && f k) := by
  induction n with
  | zero => simp
  | succ n ih =>
    rw [List.range_succ, List.foldl_append, List.foldl_cons, List.foldl_nil, Nat.testBit_or, ih, testBit_toNat_shiftLeft]
    by_cases h : k = n
    · subst h; simp
    · by_cases h2 : k < n
      · have : k < n + 1 := by omega
        simp [h, h2, this]
      · have : ¬ k < n + 1 := by omega
        simp [h, h2, this]

/-- Everything a decoded colour is (R65): bit `j` is the bit of the byte at its position, and there are BPP bits. -/
theorem testBit_decPixel (p : Params) (m : Mode) (b off k : Nat) :
    (decPixel p m b off).testBit k = (decide (k < m.bpp) && b.testBit (pixelPos p m off k)) :=
  testBit_foldl_bits _ _ _

/-- MAXC has every colour bit set (R4). -/
theorem testBit_maxc (m : Mode) {j : Nat} (hj : j < m.bpp) : m.maxc.testBit j = true := by
  cases m <;> simp only [Mode.bpp] at hj <;> simp only [Mode.maxc] <;> interval_cases j <;> rfl

/-- A colour of the mode has no bit at or above BPP (R4). -/
theorem testBit_of_le_maxc {m : Mode} {c : Nat} (hc : c ≤ m.maxc) {j : Nat} (hj : m.bpp ≤ j) : c.testBit j = false := by
  apply Nat.testBit_lt_two_pow
  refine lt_of_lt_of_le ?_ (Nat.pow_le_pow_right (by decide : 0 < 2) hj)
  cases m <;> simp only [Mode.maxc, Mode.bpp] at * <;> omega

end Sys2Proof.Machine

namespace Sys2Proof

/-- `off = x mod PPB` is in range by construction (R112). -/
theorem Mode.ppb_pos (m : Mode) : 0 < m.ppb := by cases m <;> decide

end Sys2Proof
end

