-- ==== Sys2Proof/Laws/Commands.lean ====
section
/-! SUPPORT. What the shared operations of the commands can answer: each is inverted once here, and the statements about
commands cite these lemmas instead of unfolding. -/

namespace Sys2Proof.Machine

variable {s t : State}

@[simp] theorem attempt_some (f : FaultCode) (run : State → State) (s : State) :
    attempt (some f) run s = .next (s.raise f) := rfl

@[simp] theorem attempt_none (run : State → State) (s : State) : attempt none run s = .next (run s) := rfl

/-- Everything a checked command can answer (R186): the first failing check is recorded and nothing else, or no check fails
and the execute phase runs. -/
theorem attempt_eq_next {c : Option FaultCode} {run : State → State} :
    attempt c run s = .next t ↔ (∃ f, c = some f ∧ t = s.raise f) ∨ (c = none ∧ t = run s) := by
  cases c <;> simp [eq_comm]

theorem withMode_none {mf : ModeField} (h : mf.mode = none) (s : State) (k : Mode → Host.Outcome State Fault Refusal) :
    withMode mf s k = .next (s.raise .outOfRange) := by simp [withMode, h]

theorem withMode_some {mf : ModeField} {m : Mode} (h : mf.mode = some m) (s : State)
    (k : Mode → Host.Outcome State Fault Refusal) : withMode mf s k = k m := by simp [withMode, h]

/-- Everything a command that takes a mode can answer (R76): OutOfRange for MODE = 3, else what it answers for the mode. -/
theorem withMode_eq_next {mf : ModeField} {k : Mode → Host.Outcome State Fault Refusal} :
    withMode mf s k = .next t ↔
      (mf.mode = none ∧ t = s.raise .outOfRange) ∨ (∃ m, mf.mode = some m ∧ k m = .next t) := by
  cases h : mf.mode <;> simp [withMode, h, eq_comm]

/-- Everything a lookup by colour can answer (R94, R95). -/
theorem lookupColor_eq_next {r g b : Nat} {result : Nat × Config.ColorEntry → Nat} :
    lookupColor r g b result s = .next t ↔
      (findColor s.params r g b = none ∧ t = s.raise .colorNotFound) ∨
      (∃ found, findColor s.params r g b = some found ∧ t = s.setRes (result found)) := by
  cases h : findColor s.params r g b <;> simp [lookupColor, h, eq_comm]

theorem checkOffset_eq_none {m : Mode} {off : Nat} : checkOffset m off = none ↔ off < m.ppb := by
  unfold checkOffset; split <;> simp <;> omega

theorem checkOffset_cases (m : Mode) (off : Nat) : checkOffset m off = none ∨ checkOffset m off = some .outOfRange := by
  unfold checkOffset; split <;> simp

theorem checkOffsetColor_eq_none {m : Mode} {off c : Nat} :
    checkOffsetColor m off c = none ↔ off < m.ppb ∧ c ≤ m.maxc := by
  unfold checkOffsetColor
  split
  · simp; omega
  · split <;> simp <;> omega

theorem checkOffsetColor_cases (m : Mode) (off c : Nat) :
    checkOffsetColor m off c = none ∨ checkOffsetColor m off c = some .outOfRange := by
  unfold checkOffsetColor; repeat' split
  all_goals simp

theorem State.sourceInRange_eq_true {m : Mode} :
    s.sourceInRange m = true ↔ ∀ a < s.width * s.height, s.srcIndex a ≤ m.maxc := by
  simp [State.sourceInRange]

/-- When SPRITE passes its pre-flight (R134). -/
theorem spriteCheck_eq_none {m : Mode} {t : Nat} {io im : Bool} :
    spriteCheck m t io im s = none ↔
      (io = true → t ≤ m.maxc) ∧ s.width % m.ppb = 0 ∧ s.height ≠ 0 ∧ s.width * s.height ≤ s.params.srcSize ∧
      spriteLength m io im s ≤ s.params.dstSize ∧ ∀ a < s.width * s.height, s.srcIndex a ≤ m.maxc := by
  unfold spriteCheck
  split
  · next h => simp [h.1]; intro _; omega
  · next h1 =>
    split
    · next h => simp; intros; omega
    · next h2 =>
      split
      · next h => simp; intros; omega
      · next h3 =>
        have a1 : io = true → t ≤ m.maxc := fun h => by by_contra h'; exact h1 ⟨h, by omega⟩
        split
        · next h4 =>
          rw [State.sourceInRange_eq_true] at h4
          exact ⟨fun _ => ⟨a1, by omega, by omega, by omega, by omega, h4⟩, fun _ => rfl⟩
        · next h4 =>
          rw [State.sourceInRange_eq_true] at h4
          simp only [reduceCtorEq, false_iff]
          exact fun h => h4 h.2.2.2.2.2

/-- When SCREEN passes its pre-flight (R158). -/
theorem screenCheck_eq_none {m : Mode} :
    screenCheck m s = none ↔
      s.width % m.ppb = 0 ∧ s.height ≠ 0 ∧ s.height ≤ tableRows s ∧ s.width / m.ppb ≤ 2 * s.crtcR1.toNat ∧
      s.width * s.height ≤ s.params.srcSize ∧ screenTotal s ≤ s.params.dstSize ∧
      ∀ a < s.width * s.height, s.srcIndex a ≤ m.maxc := by
  unfold screenCheck
  split
  · next h => simp; intros; omega
  · next h2 =>
    split
    · next h => simp; intros; omega
    · next h3 =>
      split
      · next h4 =>
        rw [State.sourceInRange_eq_true] at h4
        exact ⟨fun _ => ⟨by omega, by omega, by omega, by omega, by omega, by omega, h4⟩, fun _ => rfl⟩
      · next h4 =>
        rw [State.sourceInRange_eq_true] at h4
        simp only [reduceCtorEq, false_iff]
        exact fun h => h4 h.2.2.2.2.2.2

/-! ## The table -/

theorem findFrom_eq_some {r g b : Nat} {found : Nat × Config.ColorEntry} :
    ∀ {i : Nat} {es : List Config.ColorEntry}, findFrom r g b i es = some found →
      ∃ k, found.1 = i + k ∧ es[k]? = some found.2 ∧ entryIs r g b found.2 = true
  | _, [], h => by simp [findFrom] at h
  | i, e :: es, h => by
    unfold findFrom at h
    split at h
    · next he => cases h; exact ⟨0, by simp, by simp, he⟩
    · obtain ⟨k, h1, h2, h3⟩ := findFrom_eq_some h
      exact ⟨k + 1, by omega, by simpa using h2, h3⟩

theorem findFrom_eq_none {r g b : Nat} :
    ∀ {i : Nat} {es : List Config.ColorEntry}, findFrom r g b i es = none ↔ ∀ e ∈ es, entryIs r g b e = false
  | _, [] => by simp [findFrom]
  | i, e :: es => by
    unfold findFrom
    split
    · next he => simp [he]
    · next he => simp [findFrom_eq_none (i := i + 1) (es := es), he]

/-- What FIND finds (R91): an entry of the table with that colour, at that position. -/
theorem findColor_eq_some {p : Config.Params} {r g b : Nat} {found : Nat × Config.ColorEntry}
    (h : findColor p r g b = some found) :
    ∃ hi : found.1 < 27, p.colorTable[found.1] = found.2 ∧
      found.2.r.toNat = r ∧ found.2.g.toNat = g ∧ found.2.b.toNat = b := by
  obtain ⟨k, h1, h2, h3⟩ := findFrom_eq_some h
  have hk : found.1 = k := by omega
  have hlen : k < p.colorTable.toList.length := (List.getElem?_eq_some_iff.1 h2).1
  have hlt : found.1 < 27 := by simpa [hk] using hlen
  refine ⟨hlt, ?_, by simpa [entryIs] using h3⟩
  have := (List.getElem?_eq_some_iff.1 h2).2
  simpa [hk] using this

/-- When FIND finds nothing (R91). -/
theorem findColor_eq_none {p : Config.Params} {r g b : Nat} :
    findColor p r g b = none ↔
      ∀ i, (h : i < 27) → ¬ (p.colorTable[i].r.toNat = r ∧ p.colorTable[i].g.toNat = g ∧ p.colorTable[i].b.toNat = b) := by
  unfold findColor
  rw [findFrom_eq_none]
  constructor
  · intro h i hi
    have := h p.colorTable[i] (by simp)
    simpa [entryIs] using this
  · intro h e he
    obtain ⟨i, hi, rfl⟩ := List.getElem_of_mem he
    have := h i (by simpa using hi)
    simpa [entryIs] using this

/-- The triples of the table are distinct (R92b): one colour, one position. -/
theorem colorTable_rgb_inj {p : Config.Params} (hp : p.Valid) {i j : Nat} (hi : i < 27) (hj : j < 27)
    (h : p.colorTable[i].rgb = p.colorTable[j].rgb) : i = j := by
  have hn := hp.1
  rw [List.nodup_iff_injective_get] at hn
  have := @hn ⟨i, by simpa using hi⟩ ⟨j, by simpa using hj⟩ (by simpa using h)
  simpa using this

/-- FIND of an entry's own colour is that entry (R91, R92b). -/
theorem findColor_entry {p : Config.Params} (hp : p.Valid) {i : Nat} (hi : i < 27) :
    findColor p p.colorTable[i].r.toNat p.colorTable[i].g.toNat p.colorTable[i].b.toNat = some (i, p.colorTable[i]) := by
  cases h : findColor p p.colorTable[i].r.toNat p.colorTable[i].g.toNat p.colorTable[i].b.toNat with
  | none => exact absurd ⟨rfl, rfl, rfl⟩ (findColor_eq_none.1 h i hi)
  | some found =>
    obtain ⟨hk, h1, h2, h3, h4⟩ := findColor_eq_some h
    have : found.1 = i := colorTable_rgb_inj hp hk hi (by
      simp only [Config.ColorEntry.rgb, Prod.mk.injEq, h1]
      exact ⟨BitVec.eq_of_toNat_eq h2, BitVec.eq_of_toNat_eq h3, BitVec.eq_of_toNat_eq h4⟩)
    obtain ⟨k, e⟩ := found
    subst this
    simp_all

end Sys2Proof.Machine
end

