-- ==== Sys2Proof/Laws/Buffers.lean ====
section
/-! SUPPORT. Where SPRITE and SCREEN write: which fragments there are, that the sprite layout is a mixed radix (so no two
columns share a byte), and that every address stays below the length (spec/42_sprite_mask_generator.md R133,
spec/43_screen_address_mapper.md R153, R159). -/

namespace Sys2Proof.Machine

variable {s : State} {m : Mode} {t : Nat} {oobm io im : Bool}

/-! ## Mixed radix -/

/-- A quotient and a remainder are determined by the number they make. -/
theorem radix_inj {B a b a' b' : Nat} (hb : b < B) (hb' : b' < B) (h : a * B + b = a' * B + b') : a = a' ∧ b = b' := by
  have h1 : (a * B + b) / B = a := by rw [Nat.mul_comm, Nat.mul_add_div (by omega), Nat.div_eq_of_lt hb, Nat.add_zero]
  have h2 : (a' * B + b') / B = a' := by rw [Nat.mul_comm, Nat.mul_add_div (by omega), Nat.div_eq_of_lt hb', Nat.add_zero]
  have : a = a' := by rw [← h1, ← h2, h]
  subst this; omega

theorem radix_lt {A B a b : Nat} (ha : a < A) (hb : b < B) : a * B + b < A * B :=
  calc a * B + b < a * B + B := by omega
    _ = (a + 1) * B := by ring
    _ ≤ A * B := Nat.mul_le_mul_right _ ha

/-! ## Pixels and columns -/

theorem pixel_split (m : Mode) (x : Nat) : x / m.ppb * m.ppb + x % m.ppb = x := Nat.div_add_mod' x m.ppb

theorem pixel_div {col off : Nat} (h : off < m.ppb) : (col * m.ppb + off) / m.ppb = col := by
  rw [Nat.mul_comm, Nat.mul_add_div m.ppb_pos, Nat.div_eq_of_lt h, Nat.add_zero]

theorem pixel_mod {col off : Nat} (h : off < m.ppb) : (col * m.ppb + off) % m.ppb = off := by
  rw [Nat.mul_comm, Nat.mul_add_mod, Nat.mod_eq_of_lt h]

/-- The byte column of a pixel of a whole-byte row (R134 check 4). -/
theorem column_lt (hw : s.width % m.ppb = 0) {x : Nat} (hx : x < s.width) : x / m.ppb < bytesPerRow m s := by
  unfold bytesPerRow
  rw [Nat.div_lt_iff_lt_mul m.ppb_pos, Nat.div_mul_cancel (Nat.dvd_of_mod_eq_zero hw)]
  exact hx

theorem pixel_lt {col off : Nat} (hc : col < bytesPerRow m s) (ho : off < m.ppb) : col * m.ppb + off < s.width :=
  lt_of_lt_of_le (radix_lt hc ho) (Nat.div_mul_le_self _ _)

/-- The source address of a pixel is inside the image (R41). -/
theorem source_lt {y x : Nat} (hy : y < s.height) (hx : x < s.width) : y * s.width + x < s.width * s.height := by
  rw [Nat.mul_comm s.width]; exact radix_lt hy hx

/-! ## The sprite buffer -/

theorem maskCoefficient_pos (im : Bool) : 0 < maskCoefficient im := by cases im <;> decide

theorem numPages_pos (m : Mode) (io : Bool) : 0 < numPages m io := by
  cases io
  · exact one_pos
  · exact m.ppb_pos

theorem columnAddr_eq (m : Mode) (im : Bool) (s : State) (k y col : Nat) :
    columnAddr m im s k y col = ((k * s.height + y) * bytesPerRow m s + col) * maskCoefficient im := by
  unfold columnAddr pageLength rowLength; ring

theorem spriteLength_eq (m : Mode) (io im : Bool) (s : State) :
    spriteLength m io im s = numPages m io * s.height * bytesPerRow m s * maskCoefficient im := by
  unfold spriteLength pageLength rowLength; ring

/-- No two (page, row, column, lane) share a byte (R133). -/
theorem columnAddr_inj {k y col l k' y' col' l' : Nat}
    (hy : y < s.height) (hc : col < bytesPerRow m s) (hl : l < maskCoefficient im)
    (hy' : y' < s.height) (hc' : col' < bytesPerRow m s) (hl' : l' < maskCoefficient im)
    (h : columnAddr m im s k y col + l = columnAddr m im s k' y' col' + l') :
    k = k' ∧ y = y' ∧ col = col' ∧ l = l' := by
  rw [columnAddr_eq, columnAddr_eq] at h
  obtain ⟨h1, h2⟩ := radix_inj hl hl' h
  obtain ⟨h3, h4⟩ := radix_inj hc hc' h1
  obtain ⟨h5, h6⟩ := radix_inj hy hy' h3
  exact ⟨h5, h6, h4, h2⟩

/-- Every byte of a column is below the length (R133). -/
theorem columnAddr_lt {k y col l : Nat} (hk : k < numPages m io) (hy : y < s.height) (hc : col < bytesPerRow m s)
    (hl : l < maskCoefficient im) : columnAddr m im s k y col + l < spriteLength m io im s := by
  rw [columnAddr_eq, spriteLength_eq]
  exact radix_lt (radix_lt (radix_lt hk hy) hc) hl

/-- Every fragment SPRITE ORs into DST (R131): the data fragment of a position, or the mask of a masked position. -/
theorem mem_spriteWrites {w : Nat × Byte} :
    w ∈ spriteWrites m t oobm io im s ↔ ∃ k < numPages m io, ∃ y < s.height, ∃ x < s.width,
      w = (dataAddr m im s k y (x / m.ppb), encPixel s.params m (positionColor t s k y x) (x % m.ppb)) ∨
      (im = true ∧ positionMasked t oobm s k y x = true ∧
        w = (columnAddr m im s k y (x / m.ppb), maskPixel s.params m (x % m.ppb))) := by
  have at_iff (k y x : Nat) : w ∈ spriteWritesAt m t oobm im s k y x ↔
      w = (dataAddr m im s k y (x / m.ppb), encPixel s.params m (positionColor t s k y x) (x % m.ppb)) ∨
      (im = true ∧ positionMasked t oobm s k y x = true ∧
        w = (columnAddr m im s k y (x / m.ppb), maskPixel s.params m (x % m.ppb))) := by
    unfold spriteWritesAt
    cases im <;> cases positionMasked t oobm s k y x <;> simp
  simp only [spriteWrites, List.mem_flatMap, List.mem_range, at_iff]

/-- Every fragment of SPRITE goes below the length (R133, R142). -/
theorem spriteWrites_lt (hw : s.width % m.ppb = 0) {w : Nat × Byte} (h : w ∈ spriteWrites m t oobm io im s) :
    w.1 < spriteLength m io im s := by
  obtain ⟨k, hk, y, hy, x, hx, rfl | ⟨-, -, rfl⟩⟩ := mem_spriteWrites.1 h
  · exact columnAddr_lt hk hy (column_lt hw hx) (Nat.sub_lt (maskCoefficient_pos im) one_pos)
  · exact columnAddr_lt (l := 0) hk hy (column_lt hw hx) (maskCoefficient_pos im)

/-! ## The screen buffer -/

/-- The final entry of the table in closed form (R153d). -/
theorem rowBase_last (h : 0 < tableRows s) :
    rowBase s (tableRows s - 1) =
      s.crtcR9.toNat * s.params.subrowStride + (s.crtcR6.toNat - 1) * s.crtcR1.toNat * s.params.bytesPerChar := by
  have h6 : 0 < s.crtcR6.toNat := Nat.pos_of_ne_zero fun h' => by simp [tableRows, h'] at h
  have e : tableRows s - 1 = (s.crtcR6.toNat - 1) * subRows s + s.crtcR9.toNat := by
    obtain ⟨k, hk⟩ : ∃ k, s.crtcR6.toNat = k + 1 := ⟨_, (Nat.succ_pred_eq_of_pos h6).symm⟩
    unfold tableRows subRows
    rw [hk, Nat.add_mul, one_mul]; simp
  have hlt : s.crtcR9.toNat < subRows s := Nat.lt_succ_self _
  unfold rowBase
  rw [e, Nat.mul_comm (s.crtcR6.toNat - 1), Nat.mul_add_mod, Nat.mul_add_div (by omega : 0 < subRows s), Nat.mod_eq_of_lt hlt,
    Nat.div_eq_of_lt hlt, Nat.add_zero]

/-- Every fragment SCREEN ORs into DST (R162). -/
theorem mem_screenWrites {w : Nat × Byte} :
    w ∈ screenWrites m s ↔ ∃ y < s.height, ∃ x < s.width,
      w = (screenAddr m s y x, encPixel s.params m (s.srcIndex (y * s.width + x)) (x % m.ppb)) := by
  simp only [screenWrites, List.mem_flatMap, List.mem_range, List.mem_map]
  exact exists_congr fun y => and_congr_right fun _ => exists_congr fun x => and_congr_right fun _ => eq_comm

end Sys2Proof.Machine
end

