-- ==== Sys2Proof/Laws/Transactions.lean ====
section
/-! SUPPORT. What a step can do: it is the answer to the first pending transaction, and each kind of answer is said once. -/

namespace Sys2Proof.Machine

variable {s t : State}

@[simp] theorem step_nil (h : s.pending = []) : step s = .next s := by simp [step, answerNext, h]

@[simp] theorem step_cons {x : HostTxn} {rest : List HostTxn} (h : s.pending = x :: rest) :
    step s = transact x { s with pending := rest } := by simp [step, answerNext, h]

/-- Everything a step can do (R172, R192): idle, or the answer to the first pending transaction. -/
theorem step_eq_next (h : step s = .next t) :
    (s.pending = [] ∧ t = s) ∨ ∃ x rest, s.pending = x :: rest ∧ transact x { s with pending := rest } = .next t := by
  cases hp : s.pending with
  | nil => rw [step_nil hp] at h; cases h; exact .inl ⟨rfl, rfl⟩
  | cons x rest => rw [step_cons hp] at h; exact .inr ⟨x, rest, rfl, h⟩

theorem faulted_iff : s.faulted = true ↔ s.statusFault ≠ 0 := by simp [State.faulted]

theorem not_faulted_iff : s.faulted = false ↔ s.statusFault = 0 := by simp [State.faulted]

theorem issue_faulted (h : s.statusFault ≠ 0) (w : Word) : issue w s = .next s := by
  simp [issue, faulted_iff.2 h]

theorem issue_ok {w : Word} {i : Instr} (h : s.statusFault = 0) (hd : decode w = .ok i) : issue w s = exec i s := by
  simp [issue, not_faulted_iff.2 h, hd]

theorem issue_error {w : Word} {e : DecodeError} (h : s.statusFault = 0) (hd : decode w = .error e) :
    issue w s = .next (s.raise .illegalCommand) := by simp [issue, not_faulted_iff.2 h, hd]

/-- Everything a write to CMD can do (R70, R76, R187). -/
theorem issue_eq_next {w : Word} (h : issue w s = .next t) :
    (s.statusFault ≠ 0 ∧ t = s) ∨ (s.statusFault = 0 ∧ (∃ e, decode w = .error e) ∧ t = s.raise .illegalCommand) ∨
      (s.statusFault = 0 ∧ ∃ i, decode w = .ok i ∧ exec i s = .next t) := by
  by_cases hf : s.statusFault = 0
  · cases hd : decode w with
    | error e => rw [issue_error hf hd] at h; cases h; exact .inr (.inl ⟨hf, ⟨e, rfl⟩, rfl⟩)
    | ok i => rw [issue_ok hf hd] at h; exact .inr (.inr ⟨hf, i, rfl, h⟩)
  · rw [issue_faulted hf] at h; cases h; exact .inl ⟨hf, rfl⟩

/-- A register write is a command for number 0 and a write of the port for every other number (R13). -/
theorem hostWriteReg_eq (number : BitVec 6) (v : Word) (s : State) :
    hostWriteReg number v s =
      if regOfNumber number = .cmd then issue v s else .next (s.portWrite v (regOfNumber number)) := by
  unfold hostWriteReg
  split
  · next h => simp [h]
  · next h => rw [if_neg h]

@[simp] theorem hostMemWrite_inside {sp : Config.Space} {a : Nat} (h : a < s.sizeOf sp) (v : Byte) :
    hostMemWrite sp a v s = .next (s.memWrite sp a v) := by simp [hostMemWrite, h]

@[simp] theorem hostMemWrite_outside {sp : Config.Space} {a : Nat} (h : s.sizeOf sp ≤ a) (v : Byte) :
    hostMemWrite sp a v s = .refused (.hostAddressOutside sp a) := by simp [hostMemWrite, Nat.not_lt.2 h]

@[simp] theorem hostMemRead_inside {sp : Config.Space} {a : Nat} (h : a < s.sizeOf sp) :
    hostMemRead sp a s = .next (s.reply (.byte (s.memRead sp a))) := by simp [hostMemRead, h]

@[simp] theorem hostMemRead_outside {sp : Config.Space} {a : Nat} (h : s.sizeOf sp ≤ a) :
    hostMemRead sp a s = .refused (.hostAddressOutside sp a) := by simp [hostMemRead, Nat.not_lt.2 h]

/-- The only register whose write executes a command is number 0 (R13, R70). -/
theorem regOfNumber_eq_cmd (n : BitVec 6) : regOfNumber n = .cmd ↔ n = 0 := by revert n; decide

end Sys2Proof.Machine
end

