-- ==== Sys2Proof/Laws/Exec.lean ====
section
/-! SUPPORT. What a command can do, said once: it records a fault, writes RES, converts the palette, packs a buffer, or changes
nothing. The statements about the whole machine are case analyses over this. -/

namespace Sys2Proof.Machine

variable {s t : State}

/-- The kinds of effect a command has. -/
inductive Effect (i : Instr) (s t : State) : Prop where
  /-- A fault (R184). -/
  | raised (f : FaultCode) (h : t = s.raise f)
  /-- A value in RES (R15). -/
  | result (v : Nat) (h : t = s.setRes v)
  /-- The palette outputs (R19). -/
  | palette (hi : i = .palconv) (h : t = palconvRun s)
  /-- Nothing (R170). -/
  | nothing (hi : i = .nop) (h : t = s)
  /-- A sprite buffer and LEN (R131). -/
  | sprite (mf : ModeField) (m : Mode) (tr : Nat) (oobm io im : Bool) (hi : i = .sprite mf tr oobm io im)
      (hm : mf.mode = some m) (hc : spriteCheck m tr io im s = none)
      (h : t = s.pack (spriteLength m io im s) (spriteWrites m tr oobm io im s))
  /-- A screen buffer and LEN (R162). -/
  | screen (mf : ModeField) (m : Mode) (hi : i = .screen mf) (hm : mf.mode = some m) (hc : screenCheck m s = none)
      (h : t = s.pack (screenTotal s) (screenWrites m s))

/-- A checked command that writes RES. -/
theorem effect_of_attempt {i : Instr} {c : Option FaultCode} {v : State → Nat}
    (h : attempt c (fun s => s.setRes (v s)) s = .next t) : Effect i s t := by
  obtain ⟨f, -, h⟩ | ⟨-, h⟩ := attempt_eq_next.1 h
  · exact .raised f h
  · exact .result _ h

/-- A checked command that takes a mode and writes RES. -/
theorem effect_of_withMode {i : Instr} {mf : ModeField} {c : Mode → Option FaultCode} {v : Mode → State → Nat}
    (h : withMode mf s (fun m => attempt (c m) (fun s => s.setRes (v m s)) s) = .next t) : Effect i s t := by
  obtain ⟨-, h⟩ | ⟨m, -, h⟩ := withMode_eq_next.1 h
  · exact .raised _ h
  · exact effect_of_attempt h

/-- A lookup by colour. -/
theorem effect_of_lookup {i : Instr} {r g b : Nat} {v : Nat × Config.ColorEntry → Nat}
    (h : lookupColor r g b v s = .next t) : Effect i s t := by
  obtain ⟨-, h⟩ | ⟨found, -, h⟩ := lookupColor_eq_next.1 h
  · exact .raised _ h
  · exact .result _ h

/-- Everything a command can do when it answers a next state. -/
theorem exec_effect {i : Instr} (h : exec i s = .next t) : Effect i s t := by
  cases i with
  | nop => cases h; exact .nothing rfl rfl
  | hwcode r g b => exact effect_of_lookup h
  | fwidx r g b => exact effect_of_lookup h
  | rgbof n =>
    simp only [exec, execRgbof] at h
    split at h <;> cases h
    · exact .result _ rfl
    · exact .raised _ rfl
  | palconv =>
    obtain ⟨f, -, h⟩ | ⟨-, h⟩ := attempt_eq_next.1 h
    · exact .raised f h
    · exact .palette rfl h
  | enc mf off c => exact effect_of_withMode h
  | dec mf off b => exact effect_of_withMode h
  | mask mf off => exact effect_of_withMode h
  | shift mf off => exact effect_of_withMode h
  | ppb mf => exact effect_of_withMode h
  | sprite mf tr oobm io im =>
    obtain ⟨-, h⟩ | ⟨m, hm, h⟩ := withMode_eq_next.1 h
    · exact .raised _ h
    · obtain ⟨f, -, h⟩ | ⟨hc, h⟩ := attempt_eq_next.1 h
      · exact .raised f h
      · exact .sprite mf m tr oobm io im rfl hm hc h
  | rowaddr y => simp only [exec, execRowaddr] at h; exact effect_of_attempt h
  | atsize => simp only [exec, execAtsize] at h; exact effect_of_attempt h
  | screen mf =>
    obtain ⟨-, h⟩ | ⟨m, hm, h⟩ := withMode_eq_next.1 h
    · exact .raised _ h
    · obtain ⟨f, -, h⟩ | ⟨hc, h⟩ := attempt_eq_next.1 h
      · exact .raised f h
      · exact .screen mf m rfl hm hc h

/-- The step that answers a write to CMD (R70, R172). -/
theorem step_command {w : Word} {rest : List HostTxn} (h : s.pending = .writeReg 0 w :: rest) :
    step s = issue w { s with pending := rest } := by
  rw [step_cons h]; rfl

end Sys2Proof.Machine
end

