-- ==== Sys2Proof/Laws/Fields.lean ====
section
/-! SUPPORT. The laws of the command word's fields: every field is in range, the fields make up the word
(spec/30_encoding.md R71), and the MODE operand and its number are one another's inverse. -/

namespace Sys2Proof

theorem field_lt (w : Word) (lo len : Nat) : field w lo len < 2 ^ len := Nat.mod_lt _ (Nat.two_pow_pos _)

@[simp] theorem ModeField.ofNumber_number (m : ModeField) : ModeField.ofNumber m.number = m := by cases m <;> rfl

theorem ModeField.number_lt (m : ModeField) : m.number < 4 := by cases m <;> decide

theorem ModeField.number_ofNumber {n : Nat} (h : n < 4) : (ModeField.ofNumber n).number = n := by
  interval_cases n <;> rfl

/-- The four fields make up the word (R71). -/
theorem word_of_fields (w : Word) :
    w.toNat = opField w * 2 ^ 28 + modeNumberField w * 2 ^ 26 + rsvField w * 2 ^ 24 + argField w := by
  have := w.isLt
  simp only [opField, modeNumberField, rsvField, argField, field]
  omega

/-- A field of an assembled word, where the word does not overflow. -/
theorem field_encode (i : Instr) (h : i.opcode * 2 ^ 28 + i.modeNumber * 2 ^ 26 + i.arg < 2 ^ 32) (lo len : Nat) :
    field (encode i) lo len = (i.opcode * 2 ^ 28 + i.modeNumber * 2 ^ 26 + i.arg) / 2 ^ lo % 2 ^ len := by
  simp only [field, encode, BitVec.toNat_ofNat, Nat.mod_eq_of_lt h]

theorem Instr.opcode_lt (i : Instr) : i.opcode < 14 := by cases i <;> simp [Instr.opcode]

theorem Instr.modeNumber_lt (i : Instr) : i.modeNumber < 4 := by
  cases i <;> simp [Instr.modeNumber, ModeField.number_lt]

theorem Bool.toNat_le_one (b : Bool) : b.toNat ≤ 1 := by cases b <;> decide

end Sys2Proof
end

