-- ==== Sys2Proof/Laws/PerInstr.lean ====
section
/-! SUPPORT. The family EncodeFields (LAWS.json): the fields of the word of a well-formed command are its OP, its MODE, RSV = 0
and its ARG (spec/30_encoding.md R71). One lemma per constructor. -/

namespace Sys2Proof.Laws.EncodeFields

/-- A well-formed command's word carries each of its parts in the part's own field, and RSV is 0 (R71). -/
def Statement (i : Instr) : Prop :=
  i.WellFormed = true →
    opField (encode i) = i.opcode ∧ modeNumberField (encode i) = i.modeNumber ∧ rsvField (encode i) = 0 ∧
      argField (encode i) = i.arg

/-- It is enough that ARG fits its 24 bits. -/
theorem of_arg_lt {i : Instr} (h : i.WellFormed = true → i.arg < 2 ^ 24) : Statement i := by
  intro hw
  have h1 := h hw
  have h2 := i.opcode_lt
  have h3 := i.modeNumber_lt
  have hb : i.opcode * 2 ^ 28 + i.modeNumber * 2 ^ 26 + i.arg < 2 ^ 32 := by omega
  simp only [opField, modeNumberField, rsvField, argField, field_encode i hb]
  omega

theorem nop : Statement .nop := of_arg_lt fun _ => by decide

theorem hwcode (r g b : Nat) : Statement (.hwcode r g b) := of_arg_lt fun h => by
  simp only [Instr.WellFormed, decide_eq_true_eq] at h; simp only [Instr.arg]; omega

theorem fwidx (r g b : Nat) : Statement (.fwidx r g b) := of_arg_lt fun h => by
  simp only [Instr.WellFormed, decide_eq_true_eq] at h; simp only [Instr.arg]; omega

theorem rgbof (i : Nat) : Statement (.rgbof i) := of_arg_lt fun h => by
  simp only [Instr.WellFormed, decide_eq_true_eq] at h; simp only [Instr.arg]; omega

theorem palconv : Statement .palconv := of_arg_lt fun _ => by decide

theorem enc (mode : ModeField) (off c : Nat) : Statement (.enc mode off c) := of_arg_lt fun h => by
  simp only [Instr.WellFormed, decide_eq_true_eq] at h; simp only [Instr.arg]; omega

theorem dec (mode : ModeField) (off b : Nat) : Statement (.dec mode off b) := of_arg_lt fun h => by
  simp only [Instr.WellFormed, decide_eq_true_eq] at h; simp only [Instr.arg]; omega

theorem mask (mode : ModeField) (off : Nat) : Statement (.mask mode off) := of_arg_lt fun h => by
  simp only [Instr.WellFormed, decide_eq_true_eq] at h; simp only [Instr.arg]; omega

theorem shift (mode : ModeField) (off : Nat) : Statement (.shift mode off) := of_arg_lt fun h => by
  simp only [Instr.WellFormed, decide_eq_true_eq] at h; simp only [Instr.arg]; omega

theorem ppb (mode : ModeField) : Statement (.ppb mode) := of_arg_lt fun _ => by simp [Instr.arg]

theorem sprite (mode : ModeField) (t : Nat) (oobm io im : Bool) : Statement (.sprite mode t oobm io im) :=
  of_arg_lt fun h => by
    simp only [Instr.WellFormed, decide_eq_true_eq] at h
    have := Bool.toNat_le_one oobm
    have := Bool.toNat_le_one io
    have := Bool.toNat_le_one im
    simp only [Instr.arg]; omega

theorem rowaddr (y : Nat) : Statement (.rowaddr y) := of_arg_lt fun h => by
  simp only [Instr.WellFormed, decide_eq_true_eq] at h; simp only [Instr.arg]; omega

theorem atsize : Statement .atsize := of_arg_lt fun _ => by decide

theorem screen (mode : ModeField) : Statement (.screen mode) := of_arg_lt fun _ => by simp [Instr.arg]

end Sys2Proof.Laws.EncodeFields
end

