-- ==== Sys2Proof/Tests/Slice0.lean ====
section
/-! SUPPORT. Tests. Every expected value comes from spec/95_test_vectors.md (the vector is named) or from an encoding of
spec/30_encoding.md R75 written out bit by bit. Vectors that depend on an open parameter use the candidates of
spec/93_implementation_defined.md (log 3). Then one witness for the hypotheses of each statement. -/

namespace Sys2Proof.Tests

open Sys2Proof.Machine Sys2Proof.Claims

/-! ## Small states -/

/-- The reset registers with the candidate parameters. -/
def fresh : State := { State.reset with params := Config.candidate }

/-- Bytes from address 0. -/
def bytesOf (l : List Byte) : Memory := (List.range l.length).zip l

/-- An image of `w` by `h` pixels in SRC. -/
def image (w h : BitVec 16) (px : List Byte) : State := { fresh with imgW := w, imgH := h, src := bytesOf px }

/-- The timing registers R1, R6, R9. -/
def timed (r1 r6 r9 : BitVec 8) (s : State) : State := { s with crtcR1 := r1, crtcR6 := r6, crtcR9 := r9 }

/-- The same state with another SUBROW_STRIDE. -/
def stride (n : Nat) (s : State) : State := { s with params := { s.params with subrowStride := n } }

/-- One pending transaction. -/
def waiting (s : State) (x : HostTxn) : State := { s with pending := [x] }

/-- The state after one step that answers the transaction. -/
def after (s : State) (x : HostTxn) : Option State :=
  match step (waiting s x) with
  | .next t => some t
  | .fault _ => none
  | .refused _ => none

/-- The state after a write of the word to CMD. -/
def issued (s : State) (w : Word) : Option State := after s (.writeReg 0 w)

/-- RES after the word. -/
def resOf (s : State) (w : Word) : Option Word := (issued s w).map State.res

/-- STATUS.FAULT after the word. -/
def faultOf (s : State) (w : Word) : Option (BitVec 4) := (issued s w).map State.statusFault

/-- LEN and DST after the word. -/
def bufferOf (s : State) (w : Word) : Option (Word × Memory) := (issued s w).map fun t => (t.len, t.dst)

/-- The value the host read. -/
def readOf (s : State) (x : HostTxn) : Option (List Reply) := (after s x).map State.replies

/-! ## WellFormed: every check refuses an ill-formed command -/

theorem test_wf_hwcode_r : Instr.WellFormed (.hwcode 256 0 0) = false := by decide
theorem test_wf_hwcode_g : Instr.WellFormed (.hwcode 0 256 0) = false := by decide
theorem test_wf_hwcode_b : Instr.WellFormed (.hwcode 0 0 256) = false := by decide
theorem test_wf_fwidx_r : Instr.WellFormed (.fwidx 256 0 0) = false := by decide
theorem test_wf_fwidx_g : Instr.WellFormed (.fwidx 0 256 0) = false := by decide
theorem test_wf_fwidx_b : Instr.WellFormed (.fwidx 0 0 256) = false := by decide
theorem test_wf_rgbof : Instr.WellFormed (.rgbof 256) = false := by decide
theorem test_wf_enc_off : Instr.WellFormed (.enc .m0 256 0) = false := by decide
theorem test_wf_enc_c : Instr.WellFormed (.enc .m0 0 256) = false := by decide
theorem test_wf_dec_off : Instr.WellFormed (.dec .m0 256 0) = false := by decide
theorem test_wf_dec_b : Instr.WellFormed (.dec .m0 0 256) = false := by decide
theorem test_wf_mask : Instr.WellFormed (.mask .m0 256) = false := by decide
theorem test_wf_shift : Instr.WellFormed (.shift .m0 256) = false := by decide
theorem test_wf_sprite : Instr.WellFormed (.sprite .m0 16 false false false) = false := by decide
theorem test_wf_rowaddr : Instr.WellFormed (.rowaddr 65536) = false := by decide

/-! ## Decoding: words written out from the patterns of R75 -/

theorem test_decode_nop : decode 0b00000000000000000000000000000000 = .ok .nop := by decide
theorem test_decode_hwcode : decode 0b00010000100000000000000111111111 = .ok (.hwcode 128 1 255) := by decide
theorem test_decode_fwidx : decode 0b00100000111111111000000000000010 = .ok (.fwidx 255 128 2) := by decide
theorem test_decode_rgbof : decode 0b00110000000000000000000000011011 = .ok (.rgbof 27) := by decide
theorem test_decode_palconv : decode 0b01000000000000000000000000000000 = .ok .palconv := by decide
theorem test_decode_enc : decode 0b01010100000000000000000100000010 = .ok (.enc .m1 1 2) := by decide
theorem test_decode_dec : decode 0b01101000000000000000010110100111 = .ok (.dec .m2 5 0xA7) := by decide
theorem test_decode_mask : decode 0b01110100000000000000001000000000 = .ok (.mask .m1 2) := by decide
theorem test_decode_shift : decode 0b10000000000000000000000100000000 = .ok (.shift .m0 1) := by decide
theorem test_decode_ppb : decode 0b10011100000000000000000000000000 = .ok (.ppb .m3) := by decide
theorem test_decode_sprite : decode 0b10101000000000000000000001110001 = .ok (.sprite .m2 7 false false true) := by decide
theorem test_decode_sprite_options :
    decode 0b10100000000000000000000000000110 = .ok (.sprite .m0 0 true true false) := by decide
theorem test_decode_rowaddr : decode 0b10110000000000001000000000000001 = .ok (.rowaddr 0x8001) := by decide
theorem test_decode_atsize : decode 0b11000000000000000000000000000000 = .ok .atsize := by decide
theorem test_decode_screen : decode 0b11010100000000000000000000000000 = .ok (.screen .m1) := by decide

/-- R76, R171: one word for each way to match no row. -/
theorem test_decode_reserved :
    decode 0xE0000000 = .error .reservedOp ∧ decode 0x52000000 = .error .rsvNotZero ∧
    decode 0x14000000 = .error .modeNotZero ∧ decode 0xA0000008 = .error .argNotZero := by decide

/-- Vector 3.7.10: IllegalCommand comes before OutOfRange. -/
theorem test_illegal_before_range : faultOf fresh 0x5D000000 = some 4 := by decide

/-- The words of section 3.2 to 3.4 and 4.2 from their written forms. -/
theorem test_encode :
    encode (.enc .m1 3 3) = 0x54000303 ∧ encode (.dec .m2 5 0xA7) = 0x680005A7 ∧
    encode (.sprite .m1 9 true false true) = 0xA4000095 := by decide

/-! ## The commands -/

/-- Vector 6.1. -/
theorem test_nop : issued fresh 0x00000000 = some fresh := by decide
/-- Vector 6.2. -/
theorem test_nop_argument : faultOf fresh 0x00000001 = some 4 := by decide
/-- Vector 2.2.3. -/
theorem test_hwcode : resOf fresh 0x10FFFFFF = some 0x4B := by decide
/-- Vector 2.2.5. -/
theorem test_hwcode_missing : faultOf fresh 0x10000001 = some 1 := by decide
/-- Vector 2.2.7. -/
theorem test_fwidx : resOf fresh 0x20FF0000 = some 6 := by decide
/-- Vector 2.2.8. -/
theorem test_fwidx_missing : faultOf fresh 0x20808081 = some 1 := by decide
/-- Vector 2.2.9. -/
theorem test_rgbof : resOf fresh 0x30000006 = some 0x00FF0000 := by decide
/-- Vector 2.1.1. -/
theorem test_rgbof_range : faultOf fresh 0x3000001B = some 3 := by decide

/-- Vector 2.2.12. -/
theorem test_palconv :
    (issued { fresh with palCount := 2, palRgb := fresh.palRgb.set 1 0xFFFFFF } 0x40000000).map
      (fun t => (t.palHw, t.palFw)) =
    some (#v[0x54, 0x4B, 0, 0, 0, 0, 0, 0, 0, 0, 0, 0, 0, 0, 0, 0],
      #v[0x00, 0x1A, 0, 0, 0, 0, 0, 0, 0, 0, 0, 0, 0, 0, 0, 0]) := by decide

/-- Vector 2.1.9. -/
theorem test_palconv_count : faultOf { fresh with palCount := 17 } 0x40000000 = some 3 := by decide
/-- Section 3.3: `ENC.M0 5, 1`. -/
theorem test_enc_mode0 : resOf fresh 0x50000105 = some 0x50 := by decide
/-- Section 3.2: `ENC.M1 2, 1`. -/
theorem test_enc_mode1 : resOf fresh 0x54000102 = some 0x40 := by decide
/-- Section 3.4: `DEC.M0 0xA7, 0`. -/
theorem test_dec_mode0 : resOf fresh 0x600000A7 = some 13 := by decide
/-- Section 3.4: `DEC.M1 0x6C, 1`. -/
theorem test_dec_mode1 : resOf fresh 0x6400016C = some 3 := by decide
/-- Section 3.3: `MASK.M0 1`. -/
theorem test_mask_mode0 : resOf fresh 0x70000100 = some 0x55 := by decide
/-- Section 3.2: `MASK.M1 2`. -/
theorem test_mask_mode1 : resOf fresh 0x74000200 = some 0x22 := by decide
/-- Section 3.2: `SHIFT.M1 0`. -/
theorem test_shift : resOf fresh 0x84000000 = some 3 := by decide
/-- Vector 3.7.19. -/
theorem test_shift_range : faultOf fresh 0x88000800 = some 3 := by decide
/-- Section 3.5. -/
theorem test_ppb : resOf fresh 0x98000000 = some 8 := by decide
/-- Vector 3.7.20. -/
theorem test_ppb_mode3 : faultOf fresh 0x9C000000 = some 3 := by decide

/-- Section 4.3, `SPRITE.M1 1, 1, 0, 0`: two byte columns, masks, pages, out-of-bounds positions not masked. -/
theorem test_sprite_mode1 :
    bufferOf (image 8 2 [1, 2, 3, 0, 0, 0, 0, 1, 3, 3, 3, 3, 0, 0, 0, 0]) 0xA4000003 =
    some (32, bytesOf
      [0x11, 0x6A, 0xEE, 0x01, 0x00, 0xFF, 0xFF, 0x00, 0x00, 0x35, 0xFF, 0x00, 0x00, 0x77, 0x77, 0x88,
       0x00, 0x12, 0x77, 0x88, 0x00, 0x33, 0x33, 0xCC, 0x00, 0x01, 0x33, 0xC4, 0x00, 0x11, 0x11, 0xEE]) := by decide

/-- Vector 4.4.4, `SPRITE.M0 1, 1, 1, 4`: the sentinel's fragment in the data, out-of-bounds positions masked. -/
theorem test_sprite_mode0 :
    bufferOf (image 4 1 [4, 15, 1, 4]) 0xA0000047 =
    some (8, bytesOf [0xAA, 0x75, 0x55, 0x90, 0xFF, 0x30, 0x00, 0xEA]) := by decide

/-- Section 5.2: `ROWADDR 9`. -/
theorem test_rowaddr : resOf (timed 40 25 7 fresh) 0xB0000009 = some 2128 := by decide
/-- Section 5.1: `ROWADDR 200`. -/
theorem test_rowaddr_range : faultOf (timed 40 25 7 fresh) 0xB00000C8 = some 3 := by decide
/-- Section 5.2. -/
theorem test_atsize : resOf (timed 40 25 7 fresh) 0xC0000000 = some 16336 := by decide
/-- Vector 5.4.17. -/
theorem test_atsize_largest : resOf (timed 255 255 255 fresh) 0xC0000000 = some 652290 := by decide

/-- The image of section 5.3. -/
def screenImage : State :=
  timed 2 2 1 (image 8 4
    [1, 2, 3, 0, 0, 0, 0, 1, 3, 3, 3, 3, 0, 0, 0, 0, 0, 1, 0, 1, 2, 2, 2, 2, 1, 1, 1, 1, 3, 0, 0, 3])

/-- Section 5.3, B = 2. -/
theorem test_screen :
    bufferOf (stride 16 screenImage) 0xD4000000 =
    some (24, bytesOf [0x6A, 0x01, 0, 0, 0x05, 0xF0, 0, 0, 0, 0, 0, 0, 0, 0, 0, 0, 0xFF, 0, 0, 0, 0x0F, 0x99, 0, 0]) := by
  decide

/-- Section 5.3, S = 1: overlapping rows. -/
theorem test_screen_overlap :
    bufferOf (stride 1 screenImage) 0xD4000000 = some (9, bytesOf [0x6A, 0xFF, 0, 0, 0x05, 0xFF, 0x99, 0, 0]) := by decide

/-! ## The port, the memories, faults and reset -/

/-- Vector 6.7: a command is ignored while a fault is recorded. -/
theorem test_sticky : issued { fresh with statusFault := 4 } 0x94000000 = some { fresh with statusFault := 4 } := by decide
/-- Vector 6.10: RESET clears the registers and keeps the memories. -/
theorem test_reset :
    after { fresh with statusFault := 4, imgW := 8, src := [(0, 7)], dst := [(3, 9)] } .reset =
    some { fresh with src := [(0, 7)], dst := [(3, 9)] } := by decide
/-- Vector 6.15. -/
theorem test_narrow_write : (after fresh (.writeReg 0x04 0x12345)).map State.imgW = some 0x2345 := by decide
/-- Vector 6.17. -/
theorem test_palette_write : (after fresh (.writeReg 0x13 0xFF123456)).map (fun t => t.palRgb[3]) = some 0x123456 := by
  decide
/-- Vector 6.12. -/
theorem test_read_only : after fresh (.writeReg 0x01 5) = some fresh := by decide
/-- Vector 6.17, the read: the entry zero-extended. -/
theorem test_palette_read :
    readOf { fresh with palRgb := fresh.palRgb.set 3 0x123456 } (.readReg 0x13) = some [.word 0x00123456] := by decide
/-- Vector 6.11. -/
theorem test_read_cmd : readOf fresh (.readReg 0x00) = some [.word 0] := by decide
/-- `WSRC 2, 9` between two written bytes (R172). -/
theorem test_source_write : (after { fresh with src := [(1, 4), (3, 5)] } (.writeSrc 2 9)).map State.src =
    some [(1, 4), (2, 9), (3, 5)] := by decide
/-- `RDST 1` of program P1. -/
theorem test_destination_read : readOf { fresh with dst := [(0, 0x50), (1, 0xC0)] } (.readDst 1) = some [.byte 0xC0] := by
  decide
/-- R173: outside the space. -/
theorem test_outside : step (waiting fresh (.readDst 65536)) = .refused (.hostAddressOutside .dst 65536) := by rfl
/-- `withFetchWord` runs the word as the first command after reset: `PPB.M1`. -/
theorem test_fetch_word : step (State.reset.withFetchWord 32 0x94000000) = .next { State.reset with res := 4 } := by rfl

/-! ## Witnesses: a concrete state and operands that meet the hypotheses of each statement -/

/-- ResetZeroesEveryRegister. -/
theorem witness_reset : (waiting fresh .reset).pending = .reset :: [] := rfl

/-- StepRunsTheDecodedCommand. -/
theorem witness_step : (waiting fresh (.writeReg 0 0x54000102)).statusFault = 0 ∧
    (waiting fresh (.writeReg 0 0x54000102)).pending = .writeReg 0 0x54000102 :: [] ∧
    decode 0x54000102 = .ok (.enc .m1 1 2) := by decide

/-- FetchWordRunsNext. -/
theorem witness_fetch : fresh.statusFault = 0 ∧ decodeTableWord 32 0xB0000009 = some (.rowaddr 9) := by decide

/-- StickyFaultIgnoresCommands: a command, a register read and RESET while code 5 is recorded. -/
theorem witness_sticky : (waiting { fresh with statusFault := 5 } (.writeReg 0 0x94000000)).statusFault ≠ 0 ∧
    (waiting { fresh with statusFault := 5 } (.writeReg 0 0x94000000)).pending = .writeReg 0 0x94000000 :: [] ∧
    (∃ t, step (waiting { fresh with statusFault := 5 } (.readReg 1)) = .next t) ∧
    Legal (waiting { fresh with statusFault := 5 } (.readReg 1)) (.readReg 1) ∧
    (waiting { fresh with statusFault := 5 } .reset).pending = .reset :: [] :=
  ⟨by decide, rfl, ⟨_, rfl⟩, trivial, rfl⟩

/-- OnlyResetClearsTheFault, both ways a fault changes. -/
theorem witness_fault_changes :
    (step (waiting { fresh with statusFault := 4 } .reset) = .next fresh ∧ fresh.statusFault ≠ 4) ∧
    (step (waiting fresh (.writeReg 0 0xE0000000)) = .next { fresh with statusFault := 4 } ∧ (4 : BitVec 4) ≠ 0) :=
  ⟨⟨rfl, by decide⟩, rfl, by decide⟩

/-- IllegalWordsRaiseIllegalCommand. -/
theorem witness_illegal : (∀ r ∈ opcodeTable, (0x14000000 : Word) &&& r.mask ≠ r.pattern) ∧
    0xE ≤ (0xE0000000 : Word).toNat / 2 ^ 28 ∧ 0xE ≤ (0xF1234567 : Word).toNat / 2 ^ 28 ∧
    (waiting fresh (.writeReg 0 0x14000000)).statusFault = 0 ∧
    (waiting fresh (.writeReg 0 0x14000000)).pending = .writeReg 0 0x14000000 :: [] := by decide

/-- PortReadsReturnTheRegister, every register number. -/
theorem witness_port_reads : ∀ n : BitVec 6, (waiting fresh (.readReg n)).pending = .readReg n :: [] := fun _ => rfl

/-- PortWritesKeepTheLowBits, every register number; the numbers of the last clause at their boundaries. -/
theorem witness_port_writes :
    (∀ n : BitVec 6, (waiting fresh (.writeReg n 0x12345)).pending = .writeReg n 0x12345 :: []) ∧
    (∀ n ∈ ([0x01, 0x03, 0x07, 0x0E, 0x0F, 0x20, 0x3F] : List (BitVec 6)), n ≠ 0 ∧ ¬ writableNumber n) ∧
    (∀ n ∈ ([0x04, 0x0D, 0x10, 0x1F] : List (BitVec 6)), writableNumber n) :=
  ⟨fun _ => rfl, by unfold writableNumber; decide, by unfold writableNumber; decide⟩

/-- HostMemoryTransactions, each clause at the last address inside and the first outside. -/
theorem witness_host_memory :
    ((waiting fresh (.writeSrc 65535 1)).pending = .writeSrc 65535 1 :: [] ∧ 65535 < fresh.params.srcSize) ∧
    ((waiting fresh (.writeDst 65535 1)).pending = .writeDst 65535 1 :: [] ∧ 65535 < fresh.params.dstSize) ∧
    ((waiting fresh (.readSrc 65535)).pending = .readSrc 65535 :: []) ∧
    ((waiting fresh (.readDst 65535)).pending = .readDst 65535 :: []) ∧
    ((waiting fresh (.writeSrc 65536 1)).pending = .writeSrc 65536 1 :: [] ∧ fresh.params.srcSize ≤ 65536) ∧
    ((waiting fresh (.readDst 65536)).pending = .readDst 65536 :: [] ∧ fresh.params.dstSize ≤ 65536) := by decide

/-- IdleKeepsAllState. -/
theorem witness_idle : fresh.pending = [] := rfl

/-- LegalTransactionsAreAnswered. -/
theorem witness_legal : Legal (waiting fresh (.writeDst 65535 1)) (.writeDst 65535 1) ∧
    Legal (waiting fresh (.readSrc 0)) (.readSrc 0) ∧ Legal (waiting fresh .reset) .reset := by unfold Legal; decide

/-- DecodeOfEncode, at the largest operands and at MODE = 3. -/
theorem witness_well_formed : Instr.WellFormed (.hwcode 255 255 255) = true ∧ Instr.WellFormed (.enc .m3 255 255) = true ∧
    Instr.WellFormed (.sprite .m3 15 true true true) = true ∧ Instr.WellFormed (.rowaddr 65535) = true := by decide

/-- EncodeOfDecode, OperandsAreTheirFields. -/
theorem witness_decodes : decode 0x5CFF0000 = .error .argNotZero ∧ decode 0x5C00FFFF = .ok (.enc .m3 255 255) ∧
    decode 0xAC0000F7 = .ok (.sprite .m3 15 true true true) := by decide

/-- DecodeFollowsTheOpcodeMap. -/
theorem witness_row : (⟨"SPRITE", 0xA0000000, 0xF3FFFF08⟩ : OpcodeRow) ∈ opcodeTable := by decide

/-- NopChangesNothing, the illegal words and the ignored word. -/
theorem witness_nop : ((1 : Word).toNat / 2 ^ 28 = 0 ∧ (1 : Word) ≠ 0) ∧
    ((0x0FFFFFFF : Word).toNat / 2 ^ 28 = 0 ∧ (0x0FFFFFFF : Word) ≠ 0) ∧
    (waiting { fresh with statusFault := 1 } (.writeReg 0 0)).statusFault ≠ 0 := by decide

/-- HwcodeLooksUpTheHardwareCode, FwidxLooksUpThePosition: the first and the last entry, a missing colour, illegal words. -/
theorem witness_lookup : fresh.params.Valid ∧ HasColor fresh 0 0 0 0 ∧ HasColor fresh 26 255 255 255 ∧
    (∀ i, ¬ HasColor fresh i 0 0 1) ∧
    ((0x11000000 : Word).toNat / 2 ^ 28 = 1 ∧ (0x11000000 : Word).toNat / 2 ^ 24 % 16 ≠ 0) ∧
    ((0x28000000 : Word).toNat / 2 ^ 28 = 2 ∧ (0x28000000 : Word).toNat / 2 ^ 24 % 16 ≠ 0) := by
  unfold HasColor; decide

/-- RgbofReturnsTheTriple. -/
theorem witness_rgbof : 27 ≤ 27 ∧ 27 ≤ 255 ∧ (0x30000100 : Word).toNat / 2 ^ 28 = 3 ∧
    (0x30000100 : Word).toNat / 2 ^ 8 % 2 ^ 20 ≠ 0 := by decide

/-- TableRoundTrips: a lookup that succeeds; two entries, the first and the last. -/
theorem witness_round_trip : fresh.params.Valid ∧ fresh.statusFault = 0 ∧
    exec (.fwidx 255 0 0) fresh = .next { fresh with res := 6 } ∧
    (0 : Fin 27) ≠ 26 ∧ HasColor fresh 0 0 0 0 ∧ HasColor fresh 26 255 255 255 :=
  ⟨Config.candidate_valid, rfl, rfl, by decide, by unfold HasColor; decide, by unfold HasColor; decide⟩

/-- The palette of PalconvConvertsThePalette: all sixteen slots hold entry 5. -/
def fullPalette : State := { fresh with palCount := 16, palRgb := Vector.replicate 16 0x8000FF }

/-- PalconvConvertsThePalette: no slot used, all used, too many, a missing colour, an illegal word. -/
theorem witness_palconv :
    (fresh.params.Valid ∧ fresh.palCount.toNat ≤ 16 ∧ ∀ q : Fin 16, ¬ q.val < fresh.palCount.toNat) ∧
    (fullPalette.palCount.toNat ≤ 16 ∧ ∀ q : Fin 16, SlotIs fullPalette q 5) ∧
    (16 < ({ fresh with palCount := 17 } : State).palCount.toNat) ∧
    (∀ i, ¬ SlotIs { fullPalette with palRgb := fullPalette.palRgb.set 15 1 } 15 i) ∧
    ((0x40000001 : Word).toNat / 2 ^ 28 = 4 ∧ (0x40000001 : Word) ≠ 0x40000000) := by
  unfold SlotIs; decide

/-- EncPacksOnePixel, DecUnpacksOnePixel, MaskGivesThePixelBits: the largest operands of each mode and the first outside. -/
theorem witness_pixel : ModeField.mode .m0 = some .mode0 ∧ ModeField.mode .m1 = some .mode1 ∧
    ModeField.mode .m2 = some .mode2 ∧ 1 < Mode.ppb .mode0 ∧ 15 ≤ Mode.maxc .mode0 ∧ 3 < Mode.ppb .mode1 ∧
    3 ≤ Mode.maxc .mode1 ∧ 7 < Mode.ppb .mode2 ∧ 1 ≤ Mode.maxc .mode2 ∧ Mode.ppb .mode0 ≤ 2 ∧ Mode.maxc .mode0 < 16 := by
  decide

/-- The illegal words of ENC, DEC, MASK, SHIFT and PPB. -/
theorem witness_pixel_illegal :
    ((0x51000000 : Word).toNat / 2 ^ 28 = 5 ∧ (0x51000000 : Word).toNat / 2 ^ 24 % 4 ≠ 0) ∧
    ((0x60010000 : Word).toNat / 2 ^ 28 = 6 ∧ (0x60010000 : Word).toNat / 2 ^ 16 % 2 ^ 8 ≠ 0) ∧
    ((0x74000201 : Word).toNat / 2 ^ 28 = 7 ∧ (0x74000201 : Word).toNat % 2 ^ 8 ≠ 0) ∧
    ((0x80000001 : Word).toNat / 2 ^ 28 = 8 ∧ (0x80000001 : Word).toNat % 2 ^ 8 ≠ 0) ∧
    ((0x90000001 : Word).toNat / 2 ^ 28 = 9 ∧ (0x90000001 : Word).toNat % 2 ^ 24 ≠ 0) := by decide

/-- ShiftGivesTheShiftConstant, at the last offset inside and the first outside. -/
theorem witness_shift : 1 < 2 ∧ 3 < 4 ∧ 7 < 8 ∧ 2 ≤ 2 ∧ 4 ≤ 4 ∧ 8 ≤ 8 := by decide

/-- DecodeOfAnEncodedPixel, FragmentsAreExclusiveAndCover, ReplacingOnePixel, PackAndUnpackAreInverse, ShiftLaw: valid
parameters, two offsets of a mode, colours at both ends, a choice of colours. -/
theorem witness_fragments : Config.candidate.Valid ∧ 0 < Mode.ppb .mode0 ∧ 1 < Mode.ppb .mode0 ∧ (0 : Nat) ≠ 1 ∧
    0 ≤ Mode.maxc .mode0 ∧ 15 ≤ Mode.maxc .mode0 ∧ 255 < 256 ∧ (∀ o < Mode.ppb .mode1, o ≤ Mode.maxc .mode1) := by decide

/-- ShiftLaw: a parameter set with the default MODE0_POS. -/
theorem witness_default_positions : Config.candidate.mode0Off0 = ⟨7, 3, 5, 1⟩ ∧
    Config.candidate.mode0Off1 = ⟨6, 2, 4, 0⟩ := by decide

/-- The image of section 4.2. -/
def spriteImage : State := image 4 2 [1, 2, 3, 0, 0, 3, 2, 1]

/-- SpriteWritesItsBuffer: the largest sentinel with pages and masks. -/
theorem witness_sprite_ok : ModeField.mode .m1 = some .mode1 ∧ SpriteOk .mode1 3 true true spriteImage :=
  ⟨rfl, by decide, by decide, by decide, by decide, by decide, by unfold SourceOk; decide⟩

/-- SpriteWritesItsBuffer: a sentinel no pixel has, without pages (vector 4.2.9). -/
theorem witness_sprite_flat : SpriteOk .mode1 9 false true spriteImage :=
  ⟨by decide, by decide, by decide, by decide, by decide, by unfold SourceOk; decide⟩

/-- SpriteReportsItsLength: each combination of the options. -/
theorem witness_sprite_length : spriteLen .mode1 false false spriteImage < 2 ^ 32 ∧
    spriteLen .mode1 false true spriteImage < 2 ^ 32 ∧ spriteLen .mode1 true false spriteImage < 2 ^ 32 ∧
    spriteLen .mode1 true true spriteImage < 2 ^ 32 ∧ SpriteOk .mode1 3 false false spriteImage ∧
    SpriteOk .mode1 3 true false spriteImage :=
  ⟨by decide, by decide, by decide, by decide,
    ⟨by decide, by decide, by decide, by decide, by decide, by unfold SourceOk; decide⟩,
    ⟨by decide, by decide, by decide, by decide, by decide, by unfold SourceOk; decide⟩⟩

/-- SpriteBytesAreCountedOnce: the last page, row, column and lane; a mask fragment of the last page; the last pixel in page 0
and the first that page 3 shows. -/
theorem witness_sprite_bytes : spriteImage.imgW.toNat % Mode.ppb .mode1 = 0 ∧ 3 < np .mode1 true ∧
    1 < spriteImage.imgH.toNat ∧ 0 < bpr .mode1 spriteImage ∧ 1 < mc true ∧ 15 < spriteLength .mode1 true true spriteImage ∧
    (14, 0x11) ∈ spriteWrites .mode1 0 true true true spriteImage ∧ 0 ≤ 3 ∧ 3 ≤ 3 ∧ 3 < spriteImage.imgW.toNat := by decide

/-- SpriteChecksInOrder: each check's failure (vectors 4.6.7, 4.6.3, 4.6.1, 4.6.12, section 4.1, vectors 4.6.5,
4.6.10). -/
theorem witness_sprite_checks :
    (Mode.maxc .mode1 < 4) ∧
    (image 6 1 []).imgW.toNat % Mode.ppb .mode1 ≠ 0 ∧ fresh.imgH.toNat = 0 ∧
    ((image 256 257 []).imgW.toNat % Mode.ppb .mode2 = 0 ∧ (image 256 257 []).imgH.toNat ≠ 0 ∧
      (image 256 257 []).params.srcSize < (image 256 257 []).imgW.toNat * (image 256 257 []).imgH.toNat) ∧
    ((image 160 205 []).imgW.toNat % Mode.ppb .mode0 = 0 ∧
      (image 160 205 []).params.dstSize < spriteLen .mode0 true true (image 160 205 [])) ∧
    (¬ SourceOk .mode1 (image 4 1 [0, 1, 2, 4]) ∧
      (image 4 1 [0, 1, 2, 4]).imgW.toNat * (image 4 1 [0, 1, 2, 4]).imgH.toNat ≤ (image 4 1 [0, 1, 2, 4]).params.srcSize ∧
      spriteLen .mode1 false false (image 4 1 [0, 1, 2, 4]) ≤ (image 4 1 [0, 1, 2, 4]).params.dstSize) ∧
    ((0xA0000008 : Word).toNat / 2 ^ 28 = 0xA ∧ (0xA0000008 : Word).toNat / 2 ^ 3 % 2 ≠ 0) := by
  unfold SourceOk; decide

/-- FlatPackEqualsPageZero, SourceIsRecoverableFromPageZero: a sprite that completes. -/
theorem witness_sprite_runs : spriteImage.params.Valid ∧ spriteImage.statusFault = 0 ∧
    ∃ u, exec (.sprite .m1 0 true true true) spriteImage = .next u ∧ u.statusFault = 0 :=
  ⟨Config.candidate_valid, rfl, _, rfl, by decide⟩

/-- RowaddrGivesTheTableEntry: the last entry, the first outside, an illegal word. -/
theorem witness_rowaddr : 199 < rows (timed 40 25 7 fresh) ∧ rows (timed 40 25 7 fresh) ≤ 200 ∧
    (0xB0010000 : Word).toNat / 2 ^ 28 = 0xB ∧ (0xB0010000 : Word).toNat / 2 ^ 16 % 2 ^ 12 ≠ 0 := by decide

/-- AtsizeGivesTheTotalSize: the smallest table, no table, an illegal word. -/
theorem witness_atsize : 0 < rows (timed 0 1 0 fresh) ∧ rows fresh = 0 ∧ (0xC0000001 : Word).toNat / 2 ^ 28 = 0xC ∧
    (0xC0000001 : Word) ≠ 0xC0000000 := by decide

/-- ScreenReportsTotal: the table of section 5.3. -/
theorem witness_screen_total : total (stride 6 screenImage) < 2 ^ 32 ∧ 0 < rows (stride 6 screenImage) := by decide

/-- ScreenWritesItsBuffer, ScreenReportsTotal, ScreenIsFaithfulWithoutOverlap: rows that exactly do not overlap. -/
theorem witness_screen_ok : ModeField.mode .m1 = some .mode1 ∧ ScreenOk .mode1 (stride 6 screenImage) ∧
    (stride 6 screenImage).params.Valid ∧
    (stride 6 screenImage).imgW.toNat / Mode.ppb .mode1 ≤
      (stride 6 screenImage).crtcR1.toNat * (stride 6 screenImage).params.bytesPerChar ∧
    ((stride 6 screenImage).crtcR6.toNat - 1) * (stride 6 screenImage).crtcR1.toNat *
      (stride 6 screenImage).params.bytesPerChar + (stride 6 screenImage).imgW.toNat / Mode.ppb .mode1 ≤
      (stride 6 screenImage).params.subrowStride :=
  ⟨rfl, ⟨by unfold ScreenDims; decide, by decide, by decide, by unfold SourceOk; decide⟩, by decide, by decide, by decide⟩

/-- TableEntriesAndBounds: the conditions on the strides hold exactly, the last pixel, two rows. -/
theorem witness_table : ScreenOk .mode1 (stride 6 screenImage) ∧ 3 < screenImage.imgH.toNat ∧ 7 < screenImage.imgW.toNat ∧
    0 % (screenImage.crtcR9.toNat + 1) < screenImage.crtcR9.toNat ∧ 3 < rows screenImage ∧
    screenImage.crtcR1.toNat * screenImage.params.bytesPerChar < screenImage.crtcR9.toNat * 6 ∧
    2 ≤ screenImage.crtcR1.toNat * screenImage.params.bytesPerChar ∧
    (screenImage.crtcR6.toNat - 1) * screenImage.crtcR1.toNat * screenImage.params.bytesPerChar + 2 ≤ 6 :=
  ⟨witness_screen_ok.2.1, by decide⟩

/-- ScreenChecksInOrder: each check's failure (vectors 5.4.4, 5.4.5, 5.4.8, 5.4.9, 5.4.12). -/
theorem witness_screen_checks :
    (¬ ScreenDims .mode1 (timed 2 2 1 (image 8 5 [])) ∧ ¬ ScreenDims .mode1 (timed 2 2 1 (image 20 1 []))) ∧
    (ScreenDims .mode1 (timed 2 2 1 (image 4 1 [0, 0, 0, 7])) ∧ ¬ SourceOk .mode1 (timed 2 2 1 (image 4 1 [0, 0, 0, 7]))) ∧
    (ScreenDims .mode1 (stride 65536 (timed 40 25 7 (image 4 1 []))) ∧
      (stride 65536 (timed 40 25 7 (image 4 1 []))).params.dstSize < total (stride 65536 (timed 40 25 7 (image 4 1 [])))) ∧
    ((0xD0000001 : Word).toNat / 2 ^ 28 = 0xD ∧ (0xD0000001 : Word).toNat % 2 ^ 24 ≠ 0) := by
  unfold ScreenDims SourceOk; decide

/-- NoCommandWritesItsInputs, EachOutputHasItsWriters, CommandsAreIdempotent, CommandsReadNoEarlierOutput,
UnusedTimingRegistersHaveNoInfluence: a command that answers a next state. -/
theorem witness_exec : exec (.enc .m1 1 2) fresh = .next { fresh with res := 0x40 } ∧ writesRes .nop = false ∧
    writesLen .nop = false ∧ Instr.nop ≠ .palconv := ⟨rfl, rfl, rfl, by decide⟩

/-- CommandsReadNoEarlierOutput: a command that writes LEN and DST and one that writes the palette outputs, both without a
fault. -/
theorem witness_outputs : spriteImage.statusFault = 0 ∧ writesLen (.sprite .m1 0 true true true) = true ∧
    (∃ t, exec (.sprite .m1 0 true true true) spriteImage = .next t ∧ t.statusFault = 0 ∧ 0 < t.len.toNat) ∧
    fullPalette.statusFault = 0 ∧ (∃ t, exec .palconv fullPalette = .next t ∧ t.statusFault = 0) :=
  ⟨rfl, rfl, ⟨_, rfl, by decide, by decide⟩, rfl, _, rfl, by decide⟩

/-- FaultingCommandsChangeOnlyStatus: a command that records a fault. -/
theorem witness_faulting : fresh.statusFault = 0 ∧ exec (.ppb .m3) fresh = .next { fresh with statusFault := 3 } :=
  ⟨rfl, rfl⟩

/-- OnlyTheImageIsRead: SRC differs just above the image. -/
theorem witness_image_read :
    (∀ a < spriteImage.imgW.toNat * spriteImage.imgH.toNat,
      ({ spriteImage with src := spriteImage.src.write 8 255 } : State).memRead .src a = spriteImage.memRead .src a) ∧
    ∃ u, exec (.sprite .m1 0 true true true) spriteImage = .next u := ⟨by decide, _, rfl⟩

/-- CommandsOnResetValues: registers all zero, in a state that is not the reset state. -/
theorem witness_zero : RegistersZero { fresh with src := [(0, 7)] } ∧ 3 ≤ Mode.maxc .mode1 :=
  ⟨⟨rfl, rfl, rfl, rfl, rfl, rfl, rfl, rfl, rfl, rfl, rfl, rfl, by decide, by decide, by decide⟩, by decide⟩

/-- NoStepWritesTheTable: a step that writes SRC. -/
theorem witness_source_step : ∃ t, step (waiting fresh (.writeSrc 0 1)) = .next t ∧ t.src ≠ fresh.src :=
  ⟨_, rfl, by decide⟩

/-- StepKeepsTheInvariant: a state of the invariant, and a step that writes DST. -/
theorem witness_invariant : Inv (waiting spriteImage (.writeReg 0 0xA4000007)) ∧
    ∃ t, step (waiting spriteImage (.writeReg 0 0xA4000007)) = .next t :=
  ⟨⟨Config.candidate_valid, by decide, by decide, by decide, by decide, by decide⟩, _, rfl⟩

end Sys2Proof.Tests
end

section
/-! The statements about the state (spec/10_state.md): what a step does to STATUS.FAULT, what a command leaves in the inputs and
in the outputs that are not its own, RESET, and the reads and writes of the register port. -/

namespace Sys2Proof.Machine

open Sys2Proof.Claims

variable {s t : State}

/-! ## STATUS.FAULT -/

/-- "Codes 6 to 15 are never recorded", and no cause has code 0 (R181). -/
theorem FaultCode.code_bounds (f : FaultCode) : 1 ≤ f.code.toNat ∧ f.code.toNat ≤ 5 := by cases f <;> decide

/-- A command keeps STATUS.FAULT or records one of the five causes (R184). -/
theorem exec_statusFault {i : Instr} (h : exec i s = .next t) :
    t.statusFault = s.statusFault ∨ ∃ f : FaultCode, t.statusFault = f.code := by
  cases exec_effect h with
  | raised f h => exact .inr ⟨f, by simp [h]⟩
  | result _ h | palette _ h | nothing _ h | sprite _ _ _ _ _ _ _ _ _ h | screen _ _ _ _ _ h => exact .inl (by simp [h])

/-- A write to CMD keeps STATUS.FAULT, or finds it 0 and records one of the five causes (R76, R184, R187). -/
theorem issue_statusFault {w : Word} (h : issue w s = .next t) :
    t.statusFault = s.statusFault ∨ (s.statusFault = 0 ∧ ∃ f : FaultCode, t.statusFault = f.code) := by
  obtain ⟨-, rfl⟩ | ⟨hs, -, rfl⟩ | ⟨hs, i, -, hx⟩ := issue_eq_next h
  · exact .inl rfl
  · exact .inr ⟨hs, .illegalCommand, rfl⟩
  · exact (exec_statusFault hx).imp_right (⟨hs, ·⟩)

/-- Everything a host memory write can answer (R173). -/
theorem hostMemWrite_eq_next {sp : Config.Space} {a : Nat} {v : Byte} :
    hostMemWrite sp a v s = .next t ↔ a < s.sizeOf sp ∧ t = s.memWrite sp a v := by
  by_cases ha : a < s.sizeOf sp <;> simp [hostMemWrite, ha, eq_comm]

/-- Everything a host memory read can answer (R173). -/
theorem hostMemRead_eq_next {sp : Config.Space} {a : Nat} :
    hostMemRead sp a s = .next t ↔ a < s.sizeOf sp ∧ t = s.reply (.byte (s.memRead sp a)) := by
  by_cases ha : a < s.sizeOf sp <;> simp [hostMemRead, ha, eq_comm]

/-- Everything a register write can answer: a command for number 0, a write of the port for any other (R13, R70). -/
theorem hostWriteReg_eq_next {n : BitVec 6} {v : Word} :
    hostWriteReg n v s = .next t ↔ (n = 0 ∧ issue v s = .next t) ∨ (n ≠ 0 ∧ t = s.portWrite v (regOfNumber n)) := by
  rw [hostWriteReg_eq, if_congr (regOfNumber_eq_cmd n) rfl rfl]
  by_cases hn : n = 0#6
  · simp [hn]
  · simp [hn, @eq_comm State t]

@[simp] theorem memWrite_statusFault (s : State) (sp : Config.Space) (a : Nat) (v : Byte) :
    (s.memWrite sp a v).statusFault = s.statusFault := by cases sp <;> simp

/-- What a transaction does to STATUS.FAULT: only RESET clears it, only a write to CMD while it is 0 records a cause, and
any other keeps it (R14, R187). -/
theorem transact_statusFault {x : HostTxn} (h : transact x s = .next t) :
    t.statusFault = s.statusFault ∨ (x = .reset ∧ t.statusFault = 0) ∨
      (s.statusFault = 0 ∧ (∃ w, x = .writeReg 0 w) ∧ ∃ f : FaultCode, t.statusFault = f.code) := by
  cases x with
  | writeReg n v =>
    obtain ⟨rfl, hi⟩ | ⟨-, rfl⟩ := hostWriteReg_eq_next.1 h
    · exact (issue_statusFault hi).imp_right fun ⟨hs, hf⟩ => .inr ⟨hs, ⟨v, rfl⟩, hf⟩
    · exact .inl (by simp)
  | readReg n => cases h; exact .inl rfl
  | writeSrc a v | writeDst a v =>
    obtain ⟨-, rfl⟩ := hostMemWrite_eq_next.1 h
    exact .inl (by simp)
  | readSrc a | readDst a =>
    obtain ⟨-, rfl⟩ := hostMemRead_eq_next.1 h
    exact .inl (by simp)
  | reset => cases h; exact .inr (.inl ⟨rfl, rfl⟩)

/-! ## What a command leaves unchanged -/

theorem inputsKept_raise (s : State) (f : FaultCode) : InputsKept s (s.raise f) := by constructor <;> simp

theorem inputsKept_setRes (s : State) (v : Nat) : InputsKept s (s.setRes v) := by constructor <;> simp

theorem inputsKept_palconvRun (s : State) : InputsKept s (palconvRun s) := by constructor <;> simp

theorem inputsKept_pack (s : State) (n : Nat) (ws : List (Nat × Byte)) : InputsKept s (s.pack n ws) := by
  constructor <;> simp

theorem inputsKept_refl (s : State) : InputsKept s s := by constructor <;> rfl

/-- A checked command keeps RES when its execute phase does. -/
theorem attempt_res {c : Option FaultCode} {run : State → State} (hrun : (run s).res = s.res)
    (h : attempt c run s = .next t) : t.res = s.res := by
  obtain ⟨f, -, rfl⟩ | ⟨-, rfl⟩ := attempt_eq_next.1 h
  · simp
  · exact hrun

/-- A command that takes a mode keeps RES when it does for each mode. -/
theorem withMode_res {mf : ModeField} {k : Mode → Host.Outcome State Fault Refusal}
    (hk : ∀ m, k m = .next t → t.res = s.res) (h : withMode mf s k = .next t) : t.res = s.res := by
  obtain ⟨-, rfl⟩ | ⟨m, -, hm⟩ := withMode_eq_next.1 h
  · simp
  · exact hk m hm

/-- RES is kept by the four commands that are not among its writers (R15). -/
theorem exec_res {i : Instr} (hi : writesRes i = false) (h : exec i s = .next t) : t.res = s.res := by
  cases i with
  | nop => cases h; rfl
  | palconv => exact attempt_res s.palconvRun_res h
  | sprite mf tr oobm io im => exact withMode_res (fun m => attempt_res (s.pack_res _ _)) h
  | screen mf => exact withMode_res (fun m => attempt_res (s.pack_res _ _)) h
  | _ => cases hi

/-- LEN and DST are kept by every command but SPRITE and SCREEN (R16). -/
theorem exec_len_dst {i : Instr} (hi : writesLen i = false) (h : exec i s = .next t) : t.len = s.len ∧ t.dst = s.dst := by
  cases exec_effect h with
  | raised _ h | result _ h | palette _ h | nothing _ h => simp [h]
  | sprite _ _ _ _ _ _ hx | screen _ _ hx => subst hx; cases hi

/-- PAL_HW and PAL_FW are kept by every command but PALCONV (R19). -/
theorem exec_palette {i : Instr} (hi : i ≠ .palconv) (h : exec i s = .next t) : t.palHw = s.palHw ∧ t.palFw = s.palFw := by
  cases exec_effect h with
  | palette hx => exact absurd hx hi
  | raised _ h | result _ h | nothing _ h | sprite _ _ _ _ _ _ _ _ _ h | screen _ _ _ _ _ h => simp [h]

/-! ## RESET -/

/-- RESET leaves every register and register-file entry 0 (R200). -/
theorem registersZero_resetBlock (s : State) : RegistersZero s.resetBlock := by constructor <;> simp

/-- Power-on is a RESET of the registers (R22). -/
theorem resetBlock_reset : State.reset.resetBlock = State.reset := rfl

/-! ## The register port -/

/-- The port does not look at the host's transactions. -/
theorem portRead_with_pending (s : State) (rest : List HostTxn) (r : Reg) :
    ({ s with pending := rest } : State).portRead r = s.portRead r := by cases r <;> rfl

theorem portWrite_with_pending (s : State) (rest : List HostTxn) (v : Word) (r : Reg) :
    ({ s with pending := rest } : State).portWrite v r = { s.portWrite v r with pending := rest } := by cases r <;> rfl

/-- The step that answers a read of a register (R13, R172). -/
theorem reads_register {n : BitVec 6} {r : Reg} (hr : regOfNumber n = r) : Reads n fun s => s.portRead r := by
  intro s rest h
  subst hr
  simp only [step_cons h, transact, portRead_with_pending, State.reply]

/-- The step that answers a write of a register other than CMD (R13, R172). -/
theorem writes_register {n : BitVec 6} {r : Reg} (hr : regOfNumber n = r) (hn : n ≠ 0) :
    Writes n fun v s => s.portWrite v r := by
  intro s v rest h
  subst hr
  rw [step_cons h, ← portWrite_with_pending]
  exact hostWriteReg_eq_next.2 (.inr ⟨hn, rfl⟩)

/-- The registers a write of the port leaves alone: the read-only ones, the reserved numbers, and CMD, which is not stored
(R13). -/
def portIgnores : Reg → Bool
  | .cmd | .status | .res | .len | .palHw _ | .palFw _ | .reserved => true
  | _ => false

theorem portWrite_of_portIgnores {r : Reg} (h : portIgnores r = true) (s : State) (v : Word) : s.portWrite v r = s := by
  cases r with
  | cmd | status | res | len | palHw | palFw | reserved => rfl
  | _ => cases h

/-- A number the host cannot write names a register the port ignores (R13). -/
theorem portIgnores_regOfNumber : ∀ {n : BitVec 6}, ¬ writableNumber n → portIgnores (regOfNumber n) = true := by
  unfold writableNumber; decide

/-- The three register files of the map (R13). -/
theorem regOfNumber_palRgb (i : Fin 16) : regOfNumber (BitVec.ofNat 6 (0x10 + i.val)) = .palRgb i := by
  revert i; decide

theorem regOfNumber_palHw (i : Fin 16) : regOfNumber (BitVec.ofNat 6 (0x20 + i.val)) = .palHw i := by
  revert i; decide

theorem regOfNumber_palFw (i : Fin 16) : regOfNumber (BitVec.ofNat 6 (0x30 + i.val)) = .palFw i := by
  revert i; decide

/-- No palette slot has CMD's number (R13). -/
theorem palRgb_number_ne_zero (i : Fin 16) : BitVec.ofNat 6 (0x10 + i.val) ≠ 0 := by
  revert i; decide

end Sys2Proof.Machine
end

section
/-! The statements settled. -/

namespace Sys2Proof.Proofs

open Sys2Proof.Machine Sys2Proof.Claims

/-- Settles O5: of the transactions a step can answer, `transact_statusFault` leaves RESET and a write to CMD. -/
theorem onlyResetClearsTheFault : Obligations.OnlyResetClearsTheFault := by
  intro s t h hne
  obtain ⟨-, rfl⟩ | ⟨x, rest, hp, hx⟩ := step_eq_next h
  · exact absurd rfl hne
  · obtain hk | ⟨rfl, h0⟩ | ⟨hs, ⟨w, rfl⟩, f, hf⟩ := transact_statusFault hx
    · exact absurd hk hne
    · exact .inl ⟨rest, hp, h0⟩
    · exact .inr ⟨hs, ⟨w, rest, hp⟩, hf ▸ f.code_bounds⟩

/-- Settles O47, by the kinds of effect a command has. -/
theorem noCommandWritesItsInputs : Obligations.NoCommandWritesItsInputs := by
  intro i s t h
  cases exec_effect h with
  | raised f h => exact h ▸ inputsKept_raise s f
  | result v h => exact h ▸ inputsKept_setRes s v
  | palette _ h => exact h ▸ inputsKept_palconvRun s
  | nothing _ h => exact h ▸ inputsKept_refl s
  | sprite _ _ _ _ _ _ _ _ _ h | screen _ _ _ _ _ h => exact h ▸ inputsKept_pack s _ _

/-- Settles O48, one frame lemma for each group of outputs. -/
theorem eachOutputHasItsWriters : Obligations.EachOutputHasItsWriters :=
  fun _ _ _ h => ⟨fun hi => exec_res hi h, fun hi => exec_len_dst hi h, fun hi => exec_palette hi h⟩

/-- Settles O1: power-on and the step that answers RESET both leave a `resetBlock`, whose registers are 0. -/
theorem resetZeroesEveryRegister : Obligations.ResetZeroesEveryRegister := by
  refine ⟨resetBlock_reset ▸ registersZero_resetBlock State.reset, fun sp a => by cases sp <;> rfl, fun s rest h => ?_⟩
  exact ⟨_, step_cons h, registersZero_resetBlock _, rfl, rfl, rfl⟩

/-- Settles O7: the register map names the register of each number, and `portRead` its value. -/
theorem portReadsReturnTheRegister : Obligations.PortReadsReturnTheRegister :=
  ⟨reads_register (r := .cmd) rfl,
    reads_register (r := .status) rfl,
    reads_register (r := .res) rfl,
    reads_register (r := .len) rfl,
    reads_register (r := .imgW) rfl,
    reads_register (r := .imgH) rfl,
    reads_register (r := .palCount) rfl,
    reads_register (r := .reserved) rfl,
    reads_register (r := .crtcR0) rfl,
    reads_register (r := .crtcR1) rfl,
    reads_register (r := .crtcR6) rfl,
    reads_register (r := .crtcR9) rfl,
    reads_register (r := .crtcR12) rfl,
    reads_register (r := .crtcR13) rfl,
    reads_register (r := .reserved) rfl,
    reads_register (r := .reserved) rfl,
    fun i => reads_register (regOfNumber_palRgb i),
    fun i => reads_register (regOfNumber_palHw i),
    fun i => reads_register (regOfNumber_palFw i)⟩

/-- Settles O8: the register map names the register of each number, and `portWrite` keeps the low bits of its width. -/
theorem portWritesKeepTheLowBits : Obligations.PortWritesKeepTheLowBits := by
  refine ⟨writes_register (r := .imgW) rfl (by decide),
    writes_register (r := .imgH) rfl (by decide),
    writes_register (r := .palCount) rfl (by decide),
    writes_register (r := .crtcR0) rfl (by decide),
    writes_register (r := .crtcR1) rfl (by decide),
    writes_register (r := .crtcR6) rfl (by decide),
    writes_register (r := .crtcR9) rfl (by decide),
    writes_register (r := .crtcR12) rfl (by decide),
    writes_register (r := .crtcR13) rfl (by decide),
    fun i => writes_register (regOfNumber_palRgb i) (palRgb_number_ne_zero i),
    fun n hn hw => ?_⟩
  have h := writes_register (n := n) rfl hn
  simpa only [portWrite_of_portIgnores (portIgnores_regOfNumber hw)] using h

end Sys2Proof.Proofs
end

section
/-! What a command reads and what it writes (spec/20_memory.md R48): every command makes one write that its inputs determine,
and its inputs are none of its outputs. -/

namespace Sys2Proof.Machine

open Sys2Proof.Claims

/-! ## The inputs of the commands -/

/-- The two states agree on everything the rules list as an input of some command: the image size, the palette, the timing
registers the address table is made of, the parameters, and SRC below W × H (R48). -/
structure SameInputs (s s' : State) : Prop where
  imgW : s'.imgW = s.imgW
  imgH : s'.imgH = s.imgH
  palCount : s'.palCount = s.palCount
  palRgb : s'.palRgb = s.palRgb
  crtcR1 : s'.crtcR1 = s.crtcR1
  crtcR6 : s'.crtcR6 = s.crtcR6
  crtcR9 : s'.crtcR9 = s.crtcR9
  params : s'.params = s.params
  image : ∀ a < s.width * s.height, s'.memRead .src a = s.memRead .src a

namespace SameInputs

variable {s s' : State} {m : Mode}

theorem refl (s : State) : SameInputs s s := by constructor <;> intros <;> rfl

theorem of_inputsKept (h : InputsKept s s') : SameInputs s s' where
  imgW := h.imgW
  imgH := h.imgH
  palCount := h.palCount
  palRgb := h.palRgb
  crtcR1 := h.crtcR1
  crtcR6 := h.crtcR6
  crtcR9 := h.crtcR9
  params := h.params
  image a _ := by simp only [State.memRead_src, h.src]

/-- A source memory with the same image is the same input (R41). -/
theorem with_src {src : Memory}
    (h : ∀ a < s.width * s.height, ({ s with src := src } : State).memRead .src a = s.memRead .src a) :
    SameInputs s { s with src := src } where
  imgW := rfl
  imgH := rfl
  palCount := rfl
  palRgb := rfl
  crtcR1 := rfl
  crtcR6 := rfl
  crtcR9 := rfl
  params := rfl
  image := h

/-- The outputs of earlier commands are no input (R48). -/
theorem with_outputs (s : State) (res len : Word) (hw fw : Vector Byte 16) (d : Memory) :
    SameInputs s { s with res := res, len := len, palHw := hw, palFw := fw, dst := d } := by
  constructor <;> intros <;> rfl

/-! ### The palette and the address table -/

theorem slotUsed_eq (h : SameInputs s s') (i : Fin 16) : s'.slotUsed i = s.slotUsed i := by
  simp only [State.slotUsed, h.palCount]

theorem slotEntry_eq (h : SameInputs s s') (i : Fin 16) : s'.slotEntry i = s.slotEntry i := by
  simp only [State.slotEntry, State.slotRed, State.slotGreen, State.slotBlue, h.palRgb, h.params]

theorem palconvCheck_eq (h : SameInputs s s') : palconvCheck s' = palconvCheck s := by
  simp only [palconvCheck, h.palCount, h.slotUsed_eq, h.slotEntry_eq]

theorem palconvSlot_eq (h : SameInputs s s') : palconvSlot s' = palconvSlot s := by
  funext value i
  simp only [palconvSlot, h.slotUsed_eq, h.slotEntry_eq]

theorem tableRows_eq (h : SameInputs s s') : tableRows s' = tableRows s := by
  simp only [tableRows, subRows, h.crtcR6, h.crtcR9]

theorem rowBase_eq (h : SameInputs s s') (y : Nat) : rowBase s' y = rowBase s y := by
  simp only [rowBase, subRows, h.crtcR1, h.crtcR9, h.params]

theorem screenTotal_eq (h : SameInputs s s') : screenTotal s' = screenTotal s := by
  simp only [screenTotal, h.tableRows_eq, h.rowBase_eq, h.crtcR1]

/-! ### The image -/

theorem width_eq (h : SameInputs s s') : s'.width = s.width := by simp only [State.width, h.imgW]

theorem height_eq (h : SameInputs s s') : s'.height = s.height := by simp only [State.height, h.imgH]

/-- A pixel of the image is an input. -/
theorem srcIndex_eq (h : SameInputs s s') {y x : Nat} (hy : y < s.height) (hx : x < s.width) :
    s'.srcIndex (y * s.width + x) = s.srcIndex (y * s.width + x) := by
  simp only [State.srcIndex, h.image _ (source_lt hy hx)]

theorem sourceInRange_eq (h : SameInputs s s') : s'.sourceInRange m = s.sourceInRange m := by
  rw [Bool.eq_iff_iff, State.sourceInRange_eq_true, State.sourceInRange_eq_true, h.width_eq, h.height_eq]
  exact forall₂_congr fun a ha => by rw [State.srcIndex, State.srcIndex, h.image a ha]

/-- SCREEN reads pixel (x, y) at `y × W + x` and nowhere else (R162). -/
theorem screenWrites_eq (h : SameInputs s s') : screenWrites m s' = screenWrites m s := by
  simp only [screenWrites, screenAddr, h.width_eq, h.height_eq, h.rowBase_eq, h.params]
  refine List.flatMap_congr fun y hy => List.map_congr_left fun x hx => ?_
  rw [h.srcIndex_eq (List.mem_range.1 hy) (List.mem_range.1 hx)]

theorem screenCheck_eq (h : SameInputs s s') : screenCheck m s' = screenCheck m s := by
  simp only [screenCheck, h.width_eq, h.height_eq, h.tableRows_eq, h.crtcR1, h.params, h.screenTotal_eq, h.sourceInRange_eq]

/-! ### The sprite buffer -/

theorem pageLength_eq (h : SameInputs s s') (im : Bool) : pageLength m im s' = pageLength m im s := by
  simp only [pageLength, rowLength, bytesPerRow, h.width_eq, h.height_eq]

theorem spriteLength_eq (h : SameInputs s s') (io im : Bool) : spriteLength m io im s' = spriteLength m io im s := by
  simp only [spriteLength, h.pageLength_eq]

theorem columnAddr_eq (h : SameInputs s s') (im : Bool) (k y col : Nat) :
    columnAddr m im s' k y col = columnAddr m im s k y col := by
  simp only [columnAddr, rowLength, bytesPerRow, h.width_eq, h.pageLength_eq]

/-- A page moves the image right, so a position it shows is a pixel of the same row (R135, R143f). -/
theorem positionColor_eq (h : SameInputs s s') (t k : Nat) {y x : Nat} (hy : y < s.height) (hx : x < s.width) :
    positionColor t s' k y x = positionColor t s k y x := by
  simp only [positionColor, h.width_eq, h.srcIndex_eq hy (Nat.lt_of_le_of_lt (Nat.sub_le x k) hx)]

theorem positionMasked_eq (h : SameInputs s s') (t : Nat) (oobm : Bool) (k : Nat) {y x : Nat} (hy : y < s.height)
    (hx : x < s.width) : positionMasked t oobm s' k y x = positionMasked t oobm s k y x := by
  rw [positionMasked, positionMasked, h.positionColor_eq t k hy hx]

theorem spriteWrites_eq (h : SameInputs s s') (t : Nat) (oobm io im : Bool) :
    spriteWrites m t oobm io im s' = spriteWrites m t oobm io im s := by
  simp only [spriteWrites, h.width_eq, h.height_eq]
  refine List.flatMap_congr fun k _ => List.flatMap_congr fun y hy => List.flatMap_congr fun x hx => ?_
  rw [List.mem_range] at hy hx
  simp only [spriteWritesAt, dataAddr, h.columnAddr_eq, h.params, h.positionColor_eq t k hy hx,
    h.positionMasked_eq t oobm k hy hx]

theorem spriteCheck_eq (h : SameInputs s s') (t : Nat) (io im : Bool) :
    spriteCheck m t io im s' = spriteCheck m t io im s := by
  simp only [spriteCheck, h.width_eq, h.height_eq, h.params, h.spriteLength_eq, h.sourceInRange_eq]

end SameInputs

/-! ## The one write of a command -/

/-- What a command writes: a fault in STATUS, a value in RES, the palette outputs, a buffer of DST with LEN, or nothing. -/
inductive CommandWrite where
  | fault (f : FaultCode)
  | result (v : Nat)
  | palette (hw fw : Vector Byte 16)
  | buffer (n : Nat) (ws : List (Nat × Byte))
  | nothing

/-- RES and LEN have no writer in common (R15, R16). -/
theorem writesRes_of_writesLen {i : Instr} (h : writesLen i = true) : writesRes i = false := by
  cases i with
  | sprite | screen => rfl
  | _ => cases h

namespace CommandWrite

/-- The state after the write. -/
def apply : CommandWrite → State → State
  | fault f, s => s.raise f
  | result v, s => s.setRes v
  | palette hw fw, s => { s with palHw := hw, palFw := fw }
  | buffer n ws, s => s.pack n ws
  | nothing, s => s

/-- The commands that make such a write: any may fault, each output has its writers (R15, R16, R19). -/
def IsOf (i : Instr) : CommandWrite → Prop
  | fault _ => True
  | result _ => writesRes i = true
  | palette _ _ => i = .palconv
  | buffer _ _ => writesLen i = true
  | nothing => i = .nop

/-- No write touches SRC, nor depends on it. -/
theorem apply_with_src (w : CommandWrite) (s : State) (m : Memory) :
    w.apply { s with src := m } = { w.apply s with src := m } := by cases w <;> rfl

/-- A write made twice changes at most the list that stores DST. -/
theorem apply_apply (w : CommandWrite) (s : State) :
    w.apply (w.apply s) = { w.apply s with dst := (w.apply (w.apply s)).dst } := by cases w <;> rfl

/-- A write made twice leaves every byte of DST as it was: a buffer is cleared before its fragments are ORed in (R47). -/
theorem memRead_apply_apply (w : CommandWrite) (s : State) (a : Nat) :
    (w.apply (w.apply s)).memRead .dst a = (w.apply s).memRead .dst a := by
  cases w with
  | buffer n ws =>
    simp only [apply, State.memRead_pack]
    split
    · rfl
    · rw [BitVec.or_assoc, BitVec.or_self]
  | fault | result | palette | nothing => rfl

theorem apply_statusFault (w : CommandWrite) {s u : State} (hsu : u.statusFault = s.statusFault) :
    (w.apply u).statusFault = (w.apply s).statusFault := by
  cases w with
  | fault f => rfl
  | result | palette | buffer | nothing => exact hsu

/-- The outputs of a write without a fault are those of the same write in any state: RES, the palette outputs, or LEN and
DST[0, LEN), by the command that makes it (R47, R48). -/
theorem apply_outputs {i : Instr} {w : CommandWrite} (hw : w.IsOf i) (s u : State) (hok : (w.apply s).statusFault = 0) :
    (writesRes i = true → (w.apply u).res = (w.apply s).res) ∧
    (i = .palconv → (w.apply u).palHw = (w.apply s).palHw ∧ (w.apply u).palFw = (w.apply s).palFw) ∧
    (writesLen i = true → (w.apply u).len = (w.apply s).len ∧
      ∀ a < (w.apply s).len.toNat, (w.apply u).memRead .dst a = (w.apply s).memRead .dst a) := by
  cases w with
  | fault f => cases f <;> cases hok
  | result v =>
    refine ⟨fun _ => rfl, ?_, fun hlen => ?_⟩
    · rintro rfl; cases hw
    · cases hw.symm.trans (writesRes_of_writesLen hlen)
  | palette => cases hw; exact ⟨nofun, fun _ => ⟨rfl, rfl⟩, nofun⟩
  | nothing => cases hw; exact ⟨nofun, nofun, nofun⟩
  | buffer n ws =>
    have hbelow {a : Nat} (ha : a < (BitVec.ofNat 32 n).toNat) : a < n :=
      Nat.lt_of_lt_of_le ha (by rw [BitVec.toNat_ofNat]; exact Nat.mod_le _ _)
    refine ⟨fun hres => ?_, ?_, fun _ => ⟨rfl, fun a ha => ?_⟩⟩
    · cases hres.symm.trans (writesRes_of_writesLen hw)
    · rintro rfl; cases hw
    · simp only [apply, State.memRead_pack, if_pos (hbelow ha)]

end CommandWrite

/-! ## A command's write is determined by its inputs -/

/-- `k`, as the meaning of `i`, makes one and the same write in every state with the inputs of `s`. -/
def Determined (i : Instr) (s : State) (k : State → Host.Outcome State Fault Refusal) : Prop :=
  ∃ w : CommandWrite, w.IsOf i ∧ ∀ s', SameInputs s s' → k s' = .next (w.apply s')

variable {i : Instr} {s : State}

/-- A checked command whose check and execute phase are determined (R186). -/
theorem determined_attempt {check : State → Option FaultCode} {run : State → State} {w : CommandWrite} (hw : w.IsOf i)
    (hcheck : ∀ s', SameInputs s s' → check s' = check s) (hrun : ∀ s', SameInputs s s' → run s' = w.apply s') :
    Determined i s fun s' => attempt (check s') run s' := by
  cases hc : check s with
  | none => exact ⟨w, hw, fun s' h => by simp only [hcheck s' h, hc, attempt_none, hrun s' h]⟩
  | some f => exact ⟨.fault f, trivial, fun s' h => by simp only [hcheck s' h, hc, attempt_some]; rfl⟩

/-- A checked command that writes a determined value to RES. -/
theorem determined_result {check : State → Option FaultCode} {v : State → Nat} (hi : writesRes i = true)
    (hcheck : ∀ s', SameInputs s s' → check s' = check s) (hv : ∀ s', SameInputs s s' → v s' = v s) :
    Determined i s fun s' => attempt (check s') (fun s => s.setRes (v s)) s' :=
  determined_attempt (w := .result (v s)) hi hcheck fun s' h => by rw [hv s' h]; rfl

/-- A checked command that packs a determined buffer (R47). -/
theorem determined_pack {check : State → Option FaultCode} {n : State → Nat} {ws : State → List (Nat × Byte)}
    (hi : writesLen i = true) (hcheck : ∀ s', SameInputs s s' → check s' = check s)
    (hn : ∀ s', SameInputs s s' → n s' = n s) (hws : ∀ s', SameInputs s s' → ws s' = ws s) :
    Determined i s fun s' => attempt (check s') (fun s => s.pack (n s) (ws s)) s' :=
  determined_attempt (w := .buffer (n s) (ws s)) hi hcheck fun s' h => by rw [hn s' h, hws s' h]; rfl

/-- MODE = 3 faults in every state (R76). -/
theorem determined_withMode {mf : ModeField} {k : Mode → State → Host.Outcome State Fault Refusal}
    (hk : ∀ m, Determined i s (k m)) : Determined i s fun s' => withMode mf s' fun m => k m s' := by
  cases hm : mf.mode with
  | none => exact ⟨.fault .outOfRange, trivial, fun s' _ => withMode_none hm s' _⟩
  | some m =>
    obtain ⟨w, hw, hkw⟩ := hk m
    exact ⟨w, hw, fun s' h => (withMode_some hm s' _).trans (hkw s' h)⟩

/-- A lookup by colour reads the table only (R94, R95). -/
theorem determined_lookupColor {r g b : Nat} {result : Nat × Config.ColorEntry → Nat} (hi : writesRes i = true) :
    Determined i s (lookupColor r g b result) := by
  cases hf : findColor s.params r g b with
  | none => exact ⟨.fault .colorNotFound, trivial, fun s' h => lookupColor_eq_next.2 (.inl ⟨h.params ▸ hf, rfl⟩)⟩
  | some found =>
    exact ⟨.result (result found), hi, fun s' h => lookupColor_eq_next.2 (.inr ⟨found, h.params ▸ hf, rfl⟩)⟩

/-- RGBOF reads the table only (R96). -/
theorem determined_execRgbof (n : Nat) : Determined (.rgbof n) s (execRgbof n) := by
  by_cases hn : n < 27
  · exact ⟨.result (packRgb s.params.colorTable[n]), rfl, fun s' h => by simp only [execRgbof, dif_pos hn, h.params]; rfl⟩
  · exact ⟨.fault .outOfRange, trivial, fun s' _ => by rw [execRgbof, dif_neg hn]; rfl⟩

/-- PALCONV reads the palette and the table only (R98). -/
theorem determined_execPalconv : Determined .palconv s execPalconv :=
  determined_attempt (w := .palette (palconvRun s).palHw (palconvRun s).palFw) rfl (fun _ h => h.palconvCheck_eq)
    fun s' h => by simp only [palconvRun, h.palconvSlot_eq]; rfl

/-- Every command makes one write, which its inputs determine (R48). -/
theorem exec_determined (i : Instr) (s : State) : Determined i s (exec i) := by
  cases i with
  | nop => exact ⟨.nothing, rfl, fun _ _ => rfl⟩
  | hwcode r g b => exact determined_lookupColor rfl
  | fwidx r g b => exact determined_lookupColor rfl
  | rgbof n => exact determined_execRgbof n
  | palconv => exact determined_execPalconv
  | enc mf off c => exact determined_withMode fun m => determined_result rfl (fun _ _ => rfl) fun _ h => by rw [h.params]
  | dec mf off b => exact determined_withMode fun m => determined_result rfl (fun _ _ => rfl) fun _ h => by rw [h.params]
  | mask mf off => exact determined_withMode fun m => determined_result rfl (fun _ _ => rfl) fun _ h => by rw [h.params]
  | shift mf off => exact determined_withMode fun m => determined_result rfl (fun _ _ => rfl) fun _ _ => rfl
  | ppb mf => exact determined_withMode fun m => determined_result rfl (fun _ _ => rfl) fun _ _ => rfl
  | sprite mf t oobm io im =>
    exact determined_withMode fun m => determined_pack rfl (fun _ h => h.spriteCheck_eq t io im)
      (fun _ h => h.spriteLength_eq io im) fun _ h => h.spriteWrites_eq t oobm io im
  | rowaddr y => exact determined_result rfl (fun _ h => by rw [h.tableRows_eq]) fun _ h => h.rowBase_eq y
  | atsize => exact determined_result rfl (fun _ h => by rw [h.tableRows_eq]) fun _ h => h.screenTotal_eq
  | screen mf =>
    exact determined_withMode fun m => determined_pack rfl (fun _ h => h.screenCheck_eq) (fun _ h => h.screenTotal_eq)
      fun _ h => h.screenWrites_eq

/-- `exec_determined` for a command that has answered: the write made is the one any state with the same inputs gets. -/
theorem exec_eq_apply {t : State} (h : exec i s = .next t) :
    ∃ w : CommandWrite, w.IsOf i ∧ t = w.apply s ∧ ∀ s', SameInputs s s' → exec i s' = .next (w.apply s') := by
  obtain ⟨w, hw, hexec⟩ := exec_determined i s
  have hs := hexec s (.refl s)
  rw [h] at hs
  exact ⟨w, hw, Host.Outcome.next.inj hs, hexec⟩

theorem exec_answers (i : Instr) (s : State) : ∃ t, exec i s = .next t := by
  obtain ⟨w, -, h⟩ := exec_determined i s
  exact ⟨_, h s (.refl s)⟩

/-! ## Transactions -/

/-- A write to CMD is answered whatever the word (R70, R76, R187). -/
theorem issue_answers (w : Word) (s : State) : ∃ t, issue w s = .next t := by
  unfold issue
  split
  · exact ⟨_, rfl⟩
  · split
    · exact exec_answers _ s
    · exact ⟨_, rfl⟩

/-- A write to CMD leaves the inputs of commands and the host's side of the port as they are. -/
theorem issue_inputsKept {w : Word} {t : State} (h : issue w s = .next t) : InputsKept s t := by
  obtain ⟨-, rfl⟩ | ⟨-, -, rfl⟩ | ⟨-, i, -, hx⟩ := issue_eq_next h
  · exact inputsKept_refl t
  · exact inputsKept_raise s .illegalCommand
  · exact Proofs.noCommandWritesItsInputs i s t hx

/-- No transaction changes a parameter, and only a source write changes SRC (R40, R43). -/
theorem transact_params_src {x : HostTxn} {t : State} (h : transact x s = .next t) :
    t.params = s.params ∧ (t.src = s.src ∨ ∃ a v, x = .writeSrc a v) := by
  cases x with
  | writeReg n v =>
    obtain ⟨-, hi⟩ | ⟨-, rfl⟩ := hostWriteReg_eq_next.1 h
    · have kept := issue_inputsKept hi
      exact ⟨kept.params, .inl kept.src⟩
    · exact ⟨s.portWrite_params v _, .inl (s.portWrite_src v _)⟩
  | readReg n => cases h; exact ⟨rfl, .inl rfl⟩
  | writeSrc a v =>
    obtain ⟨-, rfl⟩ := hostMemWrite_eq_next.1 h
    exact ⟨rfl, .inr ⟨a, v, rfl⟩⟩
  | writeDst a v =>
    obtain ⟨-, rfl⟩ := hostMemWrite_eq_next.1 h
    exact ⟨rfl, .inl rfl⟩
  | readSrc a | readDst a =>
    obtain ⟨-, rfl⟩ := hostMemRead_eq_next.1 h
    exact ⟨rfl, .inl rfl⟩
  | reset => cases h; exact ⟨rfl, .inl rfl⟩

/-- A transaction the spec gives a meaning to is answered, takes no other transaction, and gives the host at most one value
(R52, R173). -/
theorem transact_legal {x : HostTxn} (hx : Legal s x) :
    ∃ t, transact x s = .next t ∧ t.pending = s.pending ∧ (t.replies = s.replies ∨ ∃ r, t.replies = r :: s.replies) := by
  cases x with
  | writeReg n v =>
    by_cases hn : n = 0
    · obtain ⟨t, ht⟩ := issue_answers v s
      have kept := issue_inputsKept ht
      exact ⟨t, hostWriteReg_eq_next.2 (.inl ⟨hn, ht⟩), kept.pending, .inl kept.replies⟩
    · exact ⟨_, hostWriteReg_eq_next.2 (.inr ⟨hn, rfl⟩), s.portWrite_pending v _, .inl (s.portWrite_replies v _)⟩
  | readReg n => exact ⟨_, rfl, rfl, .inr ⟨_, rfl⟩⟩
  | writeSrc a v | writeDst a v => exact ⟨_, hostMemWrite_eq_next.2 ⟨hx, rfl⟩, rfl, .inl rfl⟩
  | readSrc a | readDst a => exact ⟨_, hostMemRead_eq_next.2 ⟨hx, rfl⟩, rfl, .inr ⟨_, rfl⟩⟩
  | reset => exact ⟨_, rfl, rfl, .inl rfl⟩

end Sys2Proof.Machine
end

section
/-! The statements about memory and the order of commands (spec/20_memory.md) settled. -/

namespace Sys2Proof.Proofs

open Sys2Proof.Machine Sys2Proof.Claims

/-- Settles O50: a command's write is a next state. -/
theorem everyCommandTerminates : Obligations.EveryCommandTerminates := exec_answers

/-- Settles O51: the state after a command has the inputs of the state before, so the second run makes the same write. -/
theorem commandsAreIdempotent : Obligations.CommandsAreIdempotent := by
  intro i s t h
  have kept : SameInputs s t := .of_inputsKept (noCommandWritesItsInputs i s t h)
  obtain ⟨w, -, rfl, hexec⟩ := exec_eq_apply h
  refine ⟨(w.apply (w.apply s)).dst, ?_, w.memRead_apply_apply s⟩
  rw [hexec _ kept, ← w.apply_apply s]

/-- Settles O53: a source memory with the same image is the same input, and no write touches SRC. -/
theorem onlyTheImageIsRead : Obligations.OnlyTheImageIsRead := by
  intro i s u m himage h
  obtain ⟨w, -, rfl, hexec⟩ := exec_eq_apply h
  rw [hexec _ (.with_src himage), w.apply_with_src]

/-- Settles O54: the earlier outputs are no input, so the same write is made over them. -/
theorem commandsReadNoEarlierOutput : Obligations.CommandsReadNoEarlierOutput := by
  intro i s t res len hw fw d h
  obtain ⟨w, hi, rfl, hexec⟩ := exec_eq_apply h
  have hu := hexec _ (.with_outputs s res len hw fw d)
  exact ⟨_, hu, w.apply_statusFault rfl, fun _ hok => w.apply_outputs hi s _ hok⟩

/-- Settles O12: idle changes nothing, and `transact_params_src` says it of each transaction. -/
theorem noStepWritesTheTable : Obligations.NoStepWritesTheTable := by
  intro s t h
  obtain ⟨-, rfl⟩ | ⟨x, rest, hp, hx⟩ := step_eq_next h
  · exact ⟨rfl, .inl rfl⟩
  · obtain ⟨hparams, hsrc⟩ := transact_params_src hx
    exact ⟨hparams, hsrc.imp_right fun ⟨a, v, hwr⟩ => ⟨a, v, rest, hwr ▸ hp⟩⟩

/-- Settles O11: the step answers the first pending transaction in the state without it. -/
theorem legalTransactionsAreAnswered : Obligations.LegalTransactionsAreAnswered := by
  intro s x rest hp hx
  rw [step_cons hp]
  exact transact_legal (s := { s with pending := rest }) hx

end Sys2Proof.Proofs
end

section
/-! The command word (spec/30_encoding.md R70 to R78): the operand tables and the opcode map as two functions of OP, and the
decoder, the encoder and the masks of R75 each compared with them once. -/

namespace Sys2Proof

variable {w : Word} {i : Instr}

/-! ## The operand tables -/

/-- The fields that must be 0 in a word of the given OP, each as its lowest bit and its length: RSV, MODE where the command
takes none, and the bits of ARG that no operand names (R71, R72, R73). Of use for the fourteen OPs of R75 only. -/
def zeroFields : Nat → List (Nat × Nat)
  | 0x0 | 0x4 | 0xC => [(24, 2), (26, 2), (0, 24)]
  | 0x1 | 0x2 => [(24, 2), (26, 2)]
  | 0x3 => [(24, 2), (26, 2), (8, 16)]
  | 0x5 | 0x6 => [(24, 2), (16, 8)]
  | 0x7 | 0x8 => [(24, 2), (16, 8), (0, 8)]
  | 0x9 | 0xD => [(24, 2), (0, 24)]
  | 0xA => [(24, 2), (8, 16), (3, 1)]
  | 0xB => [(24, 2), (26, 2), (16, 8)]
  | _ => []

/-- Every must-be-zero field of an OP is 0 in the word. -/
def ZeroFields (w : Word) (op : Nat) : Prop := ∀ f ∈ zeroFields op, field w f.1 f.2 = 0

/-- The command of the given OP whose operands are the word's fields (R72, R73). Of use for the fourteen OPs of R75 only. -/
def commandOf (w : Word) : Nat → Instr
  | 0x0 => .nop
  | 0x1 => .hwcode (field w 16 8) (field w 8 8) (field w 0 8)
  | 0x2 => .fwidx (field w 16 8) (field w 8 8) (field w 0 8)
  | 0x3 => .rgbof (field w 0 8)
  | 0x4 => .palconv
  | 0x5 => .enc (.ofNumber (modeNumberField w)) (field w 8 8) (field w 0 8)
  | 0x6 => .dec (.ofNumber (modeNumberField w)) (field w 8 8) (field w 0 8)
  | 0x7 => .mask (.ofNumber (modeNumberField w)) (field w 8 8)
  | 0x8 => .shift (.ofNumber (modeNumberField w)) (field w 8 8)
  | 0x9 => .ppb (.ofNumber (modeNumberField w))
  | 0xA => .sprite (.ofNumber (modeNumberField w)) (field w 4 4) (flagField w 2) (flagField w 1) (flagField w 0)
  | 0xB => .rowaddr (field w 0 16)
  | 0xC => .atsize
  | _ => .screen (.ofNumber (modeNumberField w))

/-! ## The decoder -/

theorem modeless_eq_ok {r : Except DecodeError Instr} :
    modeless w r = .ok i ↔ field w 26 2 = 0 ∧ r = .ok i := by
  by_cases h : field w 26 2 = 0 <;> simp [modeless, modeNumberField, h]

theorem mustBeZero_eq_ok {lo len : Nat} {r : Except DecodeError Instr} :
    mustBeZero w lo len r = .ok i ↔ field w lo len = 0 ∧ r = .ok i := by
  by_cases h : field w lo len = 0 <;> simp [mustBeZero, h]

/-- What the decoder answers, in one sentence: OP is one of the fourteen, the must-be-zero fields are 0, and the operands are
the word's fields (R75, R76). -/
theorem decode_eq_ok : decode w = .ok i ↔ opField w < 14 ∧ ZeroFields w (opField w) ∧ commandOf w (opField w) = i := by
  unfold decode
  generalize opField w = op
  by_cases hop : op < 14
  · by_cases hrsv : field w 24 2 = 0
    · interval_cases op <;>
        simp [rsvField, hrsv, ZeroFields, zeroFields, commandOf, modeless_eq_ok, mustBeZero_eq_ok, and_assoc]
    · interval_cases op <;> simp [rsvField, hrsv, ZeroFields, zeroFields]
  · obtain ⟨n, rfl⟩ := Nat.exists_eq_add_of_le' (Nat.le_of_not_lt hop)
    by_cases hrsv : rsvField w = 0 <;> simp [hrsv]

/-! ## The command of a word's fields -/

theorem number_ofNumber_field (w : Word) : (ModeField.ofNumber (field w 26 2)).number = field w 26 2 :=
  ModeField.number_ofNumber (field_lt w 26 2)

theorem flagField_eq {lo : Nat} {b : Bool} : flagField w lo = b ↔ field w lo 1 = b.toNat := by
  have := field_lt w lo 1
  cases b with
  | false => rw [flagField, decide_eq_false_iff_not, Bool.toNat_false]; omega
  | true => rw [flagField, decide_eq_true_iff, Bool.toNat_true]

theorem toNat_flagField (w : Word) (lo : Nat) : (flagField w lo).toNat = field w lo 1 := (flagField_eq.1 rfl).symm

theorem commandOf_opcode {op : Nat} (hop : op < 14) : (commandOf w op).opcode = op := by
  interval_cases op <;> rfl

/-- The mnemonic is a matter of OP alone (R75). -/
theorem commandOf_mnemonic (w v : Word) {op : Nat} (hop : op < 14) :
    (commandOf w op).mnemonic = (commandOf v op).mnemonic := by
  interval_cases op <;> rfl

/-- Each operand fits its field, since it is one (R72, R73). -/
theorem commandOf_wellFormed (w : Word) {op : Nat} (hop : op < 14) : (commandOf w op).WellFormed = true := by
  interval_cases op <;> simp only [commandOf, Instr.WellFormed, FitsByte, field_lt, and_self, decide_true]

/-- MODE is the mode operand, or must be 0 (R71). -/
theorem commandOf_modeNumber {op : Nat} (hop : op < 14) (hz : ZeroFields w op) :
    (commandOf w op).modeNumber = modeNumberField w := by
  interval_cases op <;>
    simp_all [ZeroFields, zeroFields, commandOf, Instr.modeNumber, number_ofNumber_field, modeNumberField]

theorem rsvField_of_zeroFields {op : Nat} (hop : op < 14) (hz : ZeroFields w op) : rsvField w = 0 := by
  have hmem : (24, 2) ∈ zeroFields op := by interval_cases op <;> decide
  exact hz _ hmem

/-- The operands and the must-be-zero bits make up ARG (R72, R73). -/
theorem commandOf_arg {op : Nat} (hop : op < 14) (hz : ZeroFields w op) : (commandOf w op).arg = argField w := by
  interval_cases op <;>
    simp only [ZeroFields, zeroFields, List.forall_mem_cons, commandOf, Instr.arg, toNat_flagField, argField, field]
      at hz ⊢ <;>
    omega

/-! ## The encoder -/

/-- The four parts of a command stand in the word's four fields (R71). -/
structure HasParts (w : Word) (i : Instr) : Prop where
  opcode : opField w = i.opcode
  modeNumber : modeNumberField w = i.modeNumber
  rsv : rsvField w = 0
  arg : argField w = i.arg

theorem hasParts_commandOf (hop : opField w < 14) (hz : ZeroFields w (opField w)) :
    HasParts w (commandOf w (opField w)) where
  opcode := (commandOf_opcode hop).symm
  modeNumber := (commandOf_modeNumber hop hz).symm
  rsv := rsvField_of_zeroFields hop hz
  arg := (commandOf_arg hop hz).symm

/-- The family EncodeFields, over all commands (R71). -/
theorem encodeFields (i : Instr) : Laws.EncodeFields.Statement i := by
  cases i with
  | nop => exact Laws.EncodeFields.nop
  | hwcode r g b => exact Laws.EncodeFields.hwcode r g b
  | fwidx r g b => exact Laws.EncodeFields.fwidx r g b
  | rgbof n => exact Laws.EncodeFields.rgbof n
  | palconv => exact Laws.EncodeFields.palconv
  | enc m off c => exact Laws.EncodeFields.enc m off c
  | dec m off b => exact Laws.EncodeFields.dec m off b
  | mask m off => exact Laws.EncodeFields.mask m off
  | shift m off => exact Laws.EncodeFields.shift m off
  | ppb m => exact Laws.EncodeFields.ppb m
  | sprite m t oobm io im => exact Laws.EncodeFields.sprite m t oobm io im
  | rowaddr y => exact Laws.EncodeFields.rowaddr y
  | atsize => exact Laws.EncodeFields.atsize
  | screen m => exact Laws.EncodeFields.screen m

theorem hasParts_encode (hi : i.WellFormed = true) : HasParts (encode i) i := by
  obtain ⟨hop, hmode, hrsv, harg⟩ := encodeFields i hi
  exact ⟨hop, hmode, hrsv, harg⟩

namespace HasParts

/-- The four fields are the whole word (R71). -/
theorem encode_eq (h : HasParts w i) : encode i = w := by
  obtain ⟨hop, hmode, hrsv, harg⟩ := h
  have hw := word_of_fields w
  rw [hop, hmode, hrsv, harg, Nat.zero_mul, Nat.add_zero] at hw
  rw [encode, ← hw, BitVec.ofNat_toNat, BitVec.setWidth_eq]

/-- The must-be-zero fields of the command's word are 0. -/
theorem zeroFields_eq_zero (h : HasParts w i) (hi : i.WellFormed = true) : ZeroFields w i.opcode := by
  obtain ⟨-, hmode, hrsv, harg⟩ := h
  cases i <;>
    simp only [ZeroFields, zeroFields, List.forall_mem_cons, List.not_mem_nil, IsEmpty.forall_iff, implies_true, and_true,
      Instr.opcode, Instr.modeNumber, Instr.arg, Instr.WellFormed, decide_eq_true_eq, modeNumberField, rsvField, argField,
      field] at *
  case sprite m t oobm io im =>
    have := Bool.toNat_le_one oobm
    have := Bool.toNat_le_one io
    have := Bool.toNat_le_one im
    omega
  all_goals omega

/-- The operand fields of the command's word are its operands. -/
theorem commandOf_eq (h : HasParts w i) (hi : i.WellFormed = true) : commandOf w i.opcode = i := by
  obtain ⟨-, hmode, -, harg⟩ := h
  cases i <;>
    simp only [commandOf, Instr.opcode, Instr.modeNumber, Instr.arg, Instr.WellFormed, decide_eq_true_eq, argField, field]
      at * <;>
    simp [flagField_eq, hmode, field]
  case sprite m t oobm io im =>
    have := Bool.toNat_le_one oobm
    have := Bool.toNat_le_one io
    have := Bool.toNat_le_one im
    omega
  all_goals omega

end HasParts

/-! ## The opcode map -/

/-- The mask of a field: its bits are 1, the others 0. -/
def fieldMask (lo len : Nat) : Word := BitVec.ofNat 32 ((2 ^ len - 1) * 2 ^ lo)

/-- The mask of several fields. -/
def fieldsMask : List (Nat × Nat) → Word
  | [] => 0
  | f :: fs => fieldMask f.1 f.2 ||| fieldsMask fs

/-- The word masked with a field's mask is the field, in its place. -/
theorem toNat_and_fieldMask (w : Word) (lo len : Nat) : (w &&& fieldMask lo len).toNat = field w lo len * 2 ^ lo := by
  apply Nat.eq_of_testBit_eq
  intro k
  simp only [fieldMask, field, BitVec.toNat_and, BitVec.toNat_ofNat, Nat.testBit_and, Nat.testBit_mod_two_pow,
    Nat.testBit_mul_two_pow, Nat.testBit_div_two_pow, Nat.testBit_two_pow_sub_one]
  by_cases hlo : lo ≤ k
  · rw [Nat.sub_add_cancel hlo]
    by_cases hk : k < 32
    · simp [hlo, hk, Bool.and_comm]
    · simp [hk, BitVec.testBit_toNat, BitVec.getLsbD_of_ge w k (Nat.le_of_not_lt hk)]
  · simp [hlo]

theorem and_fieldsMask_eq_zero {fs : List (Nat × Nat)} : w &&& fieldsMask fs = 0 ↔ ∀ f ∈ fs, field w f.1 f.2 = 0 := by
  induction fs with
  | nil => simp [fieldsMask]
  | cons f fs ih =>
    have hf : w &&& fieldMask f.1 f.2 = 0 ↔ field w f.1 f.2 = 0 := by
      rw [← BitVec.toNat_inj, toNat_and_fieldMask]
      simp
    rw [List.forall_mem_cons, ← ih, ← hf, fieldsMask, BitVec.and_or_distrib_left]
    exact BitVec.or_eq_zero_iff

theorem or_and_absorb (a b : Word) : (a ||| b) &&& a = a := by
  ext k hk
  rw [BitVec.getElem_and, BitVec.getElem_or]
  cases a[k] <;> simp

/-- A pattern inside the first of two masks is matched when the bits of the second are 0. -/
theorem and_or_eq_iff {a b p : Word} (ha : p &&& a = p) (hb : p &&& b = 0) :
    w &&& (a ||| b) = p ↔ w &&& a = p ∧ w &&& b = 0 := by
  constructor
  · intro h
    constructor
    · calc w &&& a = w &&& (a ||| b) &&& a := by rw [BitVec.and_assoc, or_and_absorb]
        _ = p := by rw [h, ha]
    · calc w &&& b = w &&& (a ||| b) &&& b := by rw [BitVec.and_assoc, BitVec.or_comm, or_and_absorb]
        _ = 0 := by rw [h, hb]
  · rintro ⟨hwa, hwb⟩
    rw [BitVec.and_or_distrib_left, hwa, hwb]
    exact BitVec.or_zero

/-- The row of the opcode map that the operand tables give: OP is fixed, and the must-be-zero fields are 0. -/
def rowOf (op : Nat) : OpcodeRow :=
  ⟨(commandOf 0 op).mnemonic, BitVec.ofNat 32 (op * 2 ^ 28), fieldMask 28 4 ||| fieldsMask (zeroFields op)⟩

theorem opcodeTable_eq : opcodeTable = (List.range 14).map rowOf := by decide

theorem rowOf_mnemonic_inj : ∀ op < 14, ∀ op' < 14, (rowOf op).mnemonic = (rowOf op').mnemonic → op = op' := by decide

/-- A word matches the row exactly when OP is the row's and the must-be-zero fields are 0 (R75). -/
theorem and_mask_eq_pattern {op : Nat} (hop : op < 14) :
    w &&& (rowOf op).mask = (rowOf op).pattern ↔ opField w = op ∧ ZeroFields w op := by
  have hin : ∀ op < 14, (rowOf op).pattern &&& fieldMask 28 4 = (rowOf op).pattern := by decide
  have hout : ∀ op < 14, (rowOf op).pattern &&& fieldsMask (zeroFields op) = 0 := by decide
  have hopField : w &&& fieldMask 28 4 = (rowOf op).pattern ↔ opField w = op := by
    rw [← BitVec.toNat_inj, toNat_and_fieldMask, rowOf, BitVec.toNat_ofNat, opField]
    omega
  exact (and_or_eq_iff (hin op hop) (hout op hop)).trans (and_congr hopField and_fieldsMask_eq_zero)

/-! ## Single fields -/

theorem toNat_extractLsb (w : Word) (hi lo : Nat) : (w.extractLsb hi lo).toNat = field w lo (hi - lo + 1) := by
  rw [BitVec.extractLsb_toNat, Nat.shiftRight_eq_div_pow, field]

theorem getLsbD_eq_flagField (w : Word) (k : Nat) : w.getLsbD k = flagField w k := by
  simp [flagField, field, ← BitVec.testBit_toNat, Nat.testBit_eq_decide_div_mod_eq]

/-! ## The table word -/

/-- The command a table word decodes to (log 8). -/
theorem decodeTableWord_eq_some {nbits n : Nat} : decodeTableWord nbits n = some i ↔ decode (tableWord nbits n) = .ok i := by
  unfold decodeTableWord
  cases decode (tableWord nbits n) <;> simp

end Sys2Proof
end

section
/-! The statements about the command word (spec/30_encoding.md) settled. -/

namespace Sys2Proof.Proofs

open Sys2Proof.Machine Sys2Proof.Claims

/-- Settles O13: the word carries the command's parts, so its must-be-zero fields are 0 and its operand fields the operands. -/
theorem decodeOfEncode : Obligations.DecodeOfEncode := by
  intro i hi
  have hparts := hasParts_encode hi
  rw [decode_eq_ok, hparts.opcode]
  exact ⟨i.opcode_lt, hparts.zeroFields_eq_zero hi, hparts.commandOf_eq hi⟩

/-- Settles O14: the command decoded is the word's own, made of all its fields. -/
theorem encodeOfDecode : Obligations.EncodeOfDecode := by
  intro w i h
  obtain ⟨hop, hz, rfl⟩ := decode_eq_ok.1 h
  exact ⟨commandOf_wellFormed w hop, (hasParts_commandOf hop hz).encode_eq⟩

/-- Settles O15: a row's mask selects OP and the must-be-zero fields, which is what the decoder asks for. -/
theorem decodeFollowsTheOpcodeMap : Obligations.DecodeFollowsTheOpcodeMap := by
  intro w r hr
  rw [opcodeTable_eq, List.mem_map] at hr
  obtain ⟨op, hmem, rfl⟩ := hr
  have hop : op < 14 := List.mem_range.1 hmem
  rw [and_mask_eq_pattern hop]
  constructor
  · rintro ⟨rfl, hz⟩
    exact ⟨_, decode_eq_ok.2 ⟨hop, hz, rfl⟩, commandOf_mnemonic w 0 hop⟩
  · rintro ⟨i, hd, hm⟩
    obtain ⟨hlt, hz, rfl⟩ := decode_eq_ok.1 hd
    rw [commandOf_mnemonic w 0 hlt] at hm
    obtain rfl := rowOf_mnemonic_inj _ hlt _ hop hm
    exact ⟨rfl, hz⟩

/-- Settles O16: the command is the one of the word's fields, OP by OP. -/
theorem operandsAreTheirFields : Obligations.OperandsAreTheirFields := by
  intro w i h
  obtain ⟨hop, -, rfl⟩ := decode_eq_ok.1 h
  generalize opField w = op at hop
  interval_cases op <;>
    simp only [commandOf, toNat_extractLsb, getLsbD_eq_flagField, modeNumberField, number_ofNumber_field, Nat.reduceSub,
      Nat.reduceAdd, and_self]

/-- Settles O2: a write to CMD in a state without a fault is the decoded command. -/
theorem stepRunsTheDecodedCommand : Obligations.StepRunsTheDecodedCommand := by
  intro s w rest i hs hp hd
  rw [step_command hp]
  exact issue_ok hs hd

/-- Settles O3: the table word is written to CMD before all that is pending, so O2's step runs it in the original state. -/
theorem fetchWordRunsNext : Obligations.FetchWordRunsNext := by
  intro s nbits n i hs hd
  exact stepRunsTheDecodedCommand (s.withFetchWord nbits n) _ s.pending i hs rfl (decodeTableWord_eq_some.1 hd)

/-- Settles O17, a fixed word of each sub-block. -/
theorem writtenOutWordsDecode : Obligations.WrittenOutWordsDecode := by
  unfold Obligations.WrittenOutWordsDecode
  decide

end Sys2Proof.Proofs
end

section
/-! Words a host writes to CMD: the word of a well-formed command decodes to it, and a word of some OP whose must-be-zero
fields are not all 0 raises IllegalCommand (spec/30_encoding.md R75, R76, R78). -/

namespace Sys2Proof.Machine

open Sys2Proof.Claims

variable {w : Word} {i : Instr}

/-- A word written in the form of R78 from the parts of a well-formed command is that command. -/
theorem encodes_of_wellFormed (hi : i.WellFormed = true) {n : Nat}
    (hn : n = i.opcode * 2 ^ 28 + i.modeNumber * 2 ^ 26 + i.arg) : Encodes n i := by
  subst hn
  exact Proofs.decodeOfEncode i hi

/-- A word that decodes to no command raises IllegalCommand and nothing else (R76, R184). -/
theorem illegalWord_of_decode (h : ∀ i, decode w ≠ .ok i) : IllegalWord w := by
  intro s rest hs hp
  rw [step_command hp]
  cases hd : decode w with
  | ok i => exact absurd hd (h i)
  | error e => exact issue_error hs hd

/-- A word of an OP whose must-be-zero fields are not all 0 is illegal (R76). -/
theorem illegalWord_of_not_zeroFields {op : Nat} (hw : w.toNat / 2 ^ 28 = op) (hz : ¬ ZeroFields w op) :
    IllegalWord w := by
  have hop : opField w = op := by
    have := w.isLt
    rw [opField, field]
    omega
  refine illegalWord_of_decode fun i hd => ?_
  obtain ⟨-, hzero, -⟩ := decode_eq_ok.1 hd
  exact hz (hop ▸ hzero)

/-- Where MODE and RSV are all that must be 0, a word with one of them not 0 is illegal (R71, R76). -/
theorem illegalWord_of_mode_or_rsv {op : Nat} (hop : zeroFields op = [(24, 2), (26, 2)]) (hw : w.toNat / 2 ^ 28 = op)
    (hne : w.toNat / 2 ^ 24 % 16 ≠ 0) : IllegalWord w := by
  refine illegalWord_of_not_zeroFields hw fun hz => ?_
  simp only [ZeroFields, hop, List.forall_mem_cons, field] at hz
  omega

end Sys2Proof.Machine
end

section
/-! The colour table (spec/40_color_index_lut.md): what FIND, the three lookups, RGBOF and PALCONV answer, in the terms of the
statements (`HasColor`, `SlotIs`). -/

namespace Sys2Proof.Machine

open Sys2Proof.Claims
open Config (ColorEntry)

variable {s : State} {i j : Fin 27} {q : Fin 16} {r g b : Nat}

/-! ## FIND and the lookups by colour -/

/-- FIND of a colour that entry `i` has is entry `i` (R91, R92b). -/
theorem findColor_of_hasColor (hp : s.params.Valid) (h : HasColor s i r g b) :
    findColor s.params r g b = some (i.val, s.params.colorTable[i]) := by
  obtain ⟨rfl, rfl, rfl⟩ := h
  exact findColor_entry hp i.isLt

/-- FIND of a colour that no entry has finds nothing (R91). -/
theorem findColor_of_no_color (h : ∀ i, ¬ HasColor s i r g b) : findColor s.params r g b = none :=
  findColor_eq_none.2 fun i hi => h ⟨i, hi⟩

theorem lookupColor_of_hasColor (hp : s.params.Valid) (h : HasColor s i r g b) (result : Nat × ColorEntry → Nat) :
    lookupColor r g b result s = .next (s.setRes (result (i.val, s.params.colorTable[i]))) :=
  lookupColor_eq_next.2 (.inr ⟨_, findColor_of_hasColor hp h, rfl⟩)

theorem lookupColor_of_no_color (h : ∀ i, ¬ HasColor s i r g b) (result : Nat × ColorEntry → Nat) :
    lookupColor r g b result s = .next (s.raise .colorNotFound) :=
  lookupColor_eq_next.2 (.inl ⟨findColor_of_no_color h, rfl⟩)

/-- HWCODE of the colour of entry `i` gives its hardware code (R94). -/
theorem exec_hwcode_of_hasColor (hp : s.params.Valid) (h : HasColor s i r g b) :
    exec (.hwcode r g b) s = .next { s with res := s.params.colorTable[i].hw.setWidth 32 } := by
  rw [← BitVec.ofNat_toNat]
  exact lookupColor_of_hasColor hp h _

/-- FWIDX of the colour of entry `i` gives `i` (R95). -/
theorem exec_fwidx_of_hasColor (hp : s.params.Valid) (h : HasColor s i r g b) :
    exec (.fwidx r g b) s = .next { s with res := BitVec.ofNat 32 i.val } :=
  lookupColor_of_hasColor hp h _

/-- A FWIDX that completes has found an entry with the colour, and RES is its position (R95). -/
theorem exists_hasColor_of_exec_fwidx {t : State} (h : exec (.fwidx r g b) s = .next t)
    (ht : t.statusFault = 0) : ∃ i : Fin 27, HasColor s i r g b ∧ t = s.setRes i.val := by
  obtain ⟨-, rfl⟩ | ⟨found, hfound, rfl⟩ := lookupColor_eq_next.1 h
  · exact absurd ht (by simp [FaultCode.code])
  · obtain ⟨hlt, hentry, hcolor⟩ := findColor_eq_some hfound
    rw [← hentry] at hcolor
    exact ⟨⟨found.1, hlt⟩, hcolor, rfl⟩

/-- The hardware codes of the table are distinct (R92c). -/
theorem colorTable_hw_inj {p : Config.Params} (hp : p.Valid) (h : p.colorTable[i].hw = p.colorTable[j].hw) : i = j := by
  have ⟨_, hn, _⟩ := hp
  rw [List.nodup_iff_injective_get] at hn
  have := @hn ⟨i, by simp⟩ ⟨j, by simp⟩ (by simpa using h)
  simpa [Fin.ext_iff] using this

/-! ## Packed triples -/

theorem toNat_append_eq_add {m n : Nat} (x : BitVec m) (y : BitVec n) : (x ++ y).toNat = x.toNat * 2 ^ n + y.toNat := by
  rw [BitVec.toNat_append, ← Nat.shiftLeft_add_eq_or_of_lt y.isLt, Nat.shiftLeft_eq]

/-- The packed triple of an entry is its three bytes side by side (R96). -/
theorem packRgb_eq_toNat_append (e : ColorEntry) : packRgb e = (e.r ++ e.g ++ e.b).toNat := by
  rw [toNat_append_eq_add, toNat_append_eq_add, packRgb]
  omega

/-- A packed triple fits the 24 bits of ARG (R96). -/
theorem packRgb_lt (e : ColorEntry) : packRgb e < 2 ^ 24 := packRgb_eq_toNat_append e ▸ (e.r ++ e.g ++ e.b).isLt

/-- A packed triple in RES is {0x00, r, g, b} (R96). -/
theorem ofNat_packRgb (e : ColorEntry) : BitVec.ofNat 32 (packRgb e) = 0#8 ++ e.r ++ e.g ++ e.b := by
  apply BitVec.eq_of_toNat_eq
  have := packRgb_lt e
  simp only [toNat_append_eq_add, BitVec.toNat_ofNat, packRgb] at *
  omega

theorem exec_rgbof (i : Fin 27) (s : State) :
    exec (.rgbof i.val) s = .next (s.setRes (packRgb s.params.colorTable[i])) := by
  simp [exec, execRgbof]

theorem exec_rgbof_of_ge {n : Nat} (h : 27 ≤ n) (s : State) : exec (.rgbof n) s = .next (s.raise .outOfRange) := by
  simp [exec, execRgbof, Nat.not_lt.2 h]

/-- The components of a packed triple make up the word of a lookup in the form of R78, `base` being its OP. -/
theorem decode_add_packRgb {base : Nat} {e : ColorEntry} {f : Instr}
    (h : Encodes (base + e.r.toNat * 2 ^ 16 + e.g.toNat * 2 ^ 8 + e.b.toNat) f) :
    decode (BitVec.ofNat 32 base + BitVec.ofNat 32 (packRgb e)) = .ok f := by
  rw [← BitVec.ofNat_add, packRgb, ← Nat.add_assoc, ← Nat.add_assoc]
  exact h

/-! ## The words of the lookups -/

theorem hwcode_encodes (hr : r < 256) (hg : g < 256) (hb : b < 256) :
    Encodes (0x10000000 + r * 2 ^ 16 + g * 2 ^ 8 + b) (.hwcode r g b) :=
  encodes_of_wellFormed (by simp [Instr.WellFormed, *]) (by simp only [Instr.opcode, Instr.modeNumber, Instr.arg]; omega)

theorem fwidx_encodes (hr : r < 256) (hg : g < 256) (hb : b < 256) :
    Encodes (0x20000000 + r * 2 ^ 16 + g * 2 ^ 8 + b) (.fwidx r g b) :=
  encodes_of_wellFormed (by simp [Instr.WellFormed, *]) (by simp only [Instr.opcode, Instr.modeNumber, Instr.arg]; omega)

theorem rgbof_encodes {n : Nat} (hn : n < 256) : Encodes (0x30000000 + n) (.rgbof n) :=
  encodes_of_wellFormed (by simp [Instr.WellFormed, hn]) (by simp only [Instr.opcode, Instr.modeNumber, Instr.arg]; omega)

/-! ## The palette -/

/-- A slot holds the triple of an entry when its components are the entry's (R18). -/
theorem slotIs_iff_hasColor : SlotIs s q i ↔ HasColor s i (s.slotRed q) (s.slotGreen q) (s.slotBlue q) := by
  have hr := s.params.colorTable[i].r.isLt
  have hg := s.params.colorTable[i].g.isLt
  have hb := s.params.colorTable[i].b.isLt
  have hq := s.palRgb[q].isLt
  rw [SlotIs, HasColor, ← BitVec.toNat_inj, toNat_append_eq_add, toNat_append_eq_add, State.slotRed, State.slotGreen,
    State.slotBlue]
  omega

theorem slotUsed_iff : s.slotUsed q = true ↔ q.val < s.palCount.toNat := decide_eq_true_iff

theorem slotEntry_of_slotIs (hp : s.params.Valid) (h : SlotIs s q i) :
    s.slotEntry q = some (i.val, s.params.colorTable[i]) := findColor_of_hasColor hp (slotIs_iff_hasColor.1 h)

theorem slotEntry_of_no_slotIs (h : ∀ i, ¬ SlotIs s q i) : s.slotEntry q = none :=
  findColor_of_no_color fun i hi => h i (slotIs_iff_hasColor.2 hi)

theorem palconvCheck_of_count (h : 16 < s.palCount.toNat) : palconvCheck s = some .outOfRange := if_pos h

/-- The second check of PALCONV: every used slot is found (R98). -/
theorem palconvCheck_of_count_le (h : s.palCount.toNat ≤ 16) :
    palconvCheck s =
      if ∀ q : Fin 16, q.val < s.palCount.toNat → (s.slotEntry q).isSome = true then none else some .colorNotFound := by
  rw [palconvCheck, if_neg (Nat.not_lt.2 h)]
  refine if_congr ?_ rfl rfl
  simp [← slotUsed_iff, imp_iff_or_not, or_comm]

/-- With every used slot the triple of an entry, PALCONV passes its checks (R98). -/
theorem palconvCheck_of_slots {f : Fin 16 → Fin 27} (hp : s.params.Valid) (hcount : s.palCount.toNat ≤ 16)
    (hslots : ∀ q : Fin 16, q.val < s.palCount.toNat → SlotIs s q (f q)) : palconvCheck s = none := by
  rw [palconvCheck_of_count_le hcount, if_pos]
  intro q hq
  rw [slotEntry_of_slotIs hp (hslots q hq), Option.isSome_some]

/-- With a used slot whose triple is no entry's, PALCONV fails its second check (R98). -/
theorem palconvCheck_of_no_slotIs (hcount : s.palCount.toNat ≤ 16) (hq : q.val < s.palCount.toNat)
    (hslot : ∀ i, ¬ SlotIs s q i) : palconvCheck s = some .colorNotFound := by
  rw [palconvCheck_of_count_le hcount, if_neg]
  intro hfound
  simpa [slotEntry_of_no_slotIs hslot] using hfound q hq

/-- What PALCONV writes to a slot whose entry is known when the slot is used (R98). -/
theorem palconvSlot_eq_ite (hp : s.params.Valid) (hslot : q.val < s.palCount.toNat → SlotIs s q i)
    (value : Nat × ColorEntry → Byte) :
    palconvSlot s value q = if q.val < s.palCount.toNat then value (i.val, s.params.colorTable[i]) else 0 := by
  unfold palconvSlot
  simp only [slotUsed_iff]
  split
  · next hq => rw [slotEntry_of_slotIs hp (hslot hq)]
  · rfl

theorem exec_palconv (s : State) : exec .palconv s = attempt (palconvCheck s) palconvRun s := rfl

/-- A check of PALCONV that fails is recorded and nothing else (R98, R184). -/
theorem raises_palconv {f : FaultCode} (h : palconvCheck s = some f) : Raises .palconv s f.code := by
  rw [Raises, exec_palconv, h]
  rfl

end Sys2Proof.Machine
end

section
/-! The statements about the colour table (spec/40_color_index_lut.md), and the invariant after power-on, settled. -/

namespace Sys2Proof.Proofs

open Sys2Proof.Machine Sys2Proof.Claims

/-- Settles O19: FIND of an entry's colour is the entry, and the must-be-zero fields of OP 1 are MODE and RSV. -/
theorem hwcodeLooksUpTheHardwareCode : Obligations.HwcodeLooksUpTheHardwareCode :=
  ⟨fun _ _ _ _ _ => exec_hwcode_of_hasColor, fun _ _ _ _ hno => lookupColor_of_no_color hno _,
    fun _ _ _ => hwcode_encodes, fun _ => illegalWord_of_mode_or_rsv rfl⟩

/-- Settles O20, as O19, with the position for the hardware code. -/
theorem fwidxLooksUpThePosition : Obligations.FwidxLooksUpThePosition :=
  ⟨fun _ _ _ _ _ => exec_fwidx_of_hasColor, fun _ _ _ _ hno => lookupColor_of_no_color hno _,
    fun _ _ _ => fwidx_encodes, fun _ => illegalWord_of_mode_or_rsv rfl⟩

/-- Settles O21: the packed triple is the four bytes side by side, and the must-be-zero bits of OP 3 are [27:8]. -/
theorem rgbofReturnsTheTriple : Obligations.RgbofReturnsTheTriple := by
  refine ⟨fun s i => ?_, fun s n hn => exec_rgbof_of_ge hn s, fun n => rgbof_encodes,
    fun w hw hne => illegalWord_of_not_zeroFields hw fun hz => ?_⟩
  · rw [exec_rgbof, State.setRes, ofNat_packRgb]
  · simp only [ZeroFields, zeroFields, List.forall_mem_cons, field] at hz
    omega

/-- Settles O22: the packed triple in RES is the ARG of the two lookups, and distinct entries have distinct codes. -/
theorem tableRoundTrips : Obligations.TableRoundTrips := by
  refine ⟨fun s i hp => ?_, fun s t r g b _ h ht => ?_, fun s i j r g b r' g' b' hp hij hi hj => ?_⟩
  · have hr := s.params.colorTable[i].r.isLt
    have hg := s.params.colorTable[i].g.isLt
    have hb := s.params.colorTable[i].b.isLt
    have hvalid : (s.setRes (packRgb s.params.colorTable[i])).params.Valid := hp
    exact ⟨_, exec_rgbof i s,
      ⟨_, decode_add_packRgb (fwidx_encodes hr hg hb), exec_fwidx_of_hasColor hvalid ⟨rfl, rfl, rfl⟩⟩,
      ⟨_, decode_add_packRgb (hwcode_encodes hr hg hb), exec_hwcode_of_hasColor hvalid ⟨rfl, rfl, rfl⟩⟩⟩
  · obtain ⟨i, ⟨rfl, rfl, rfl⟩, rfl⟩ := exists_hasColor_of_exec_fwidx h ht
    have hres : (s.setRes i.val).res.toNat = i.val := Nat.mod_eq_of_lt (by omega)
    rw [hres]
    exact ⟨_, exec_rgbof i _, Nat.mod_eq_of_lt ((packRgb_lt _).trans (by decide))⟩
  · refine ⟨_, _, exec_hwcode_of_hasColor hp hi, exec_hwcode_of_hasColor hp hj, rfl, rfl, fun heq => hij ?_⟩
    exact colorTable_hw_inj hp (by simpa using congrArg (BitVec.setWidth 8) heq)

/-- Settles O23: each check is decided by the slots, and a used slot's entry is the one it holds. -/
theorem palconvConvertsThePalette : Obligations.PalconvConvertsThePalette := by
  refine ⟨fun s f hp hcount hslots => ?_, fun s hcount => raises_palconv (palconvCheck_of_count hcount),
    fun s q hcount hq hslot => raises_palconv (palconvCheck_of_no_slotIs hcount hq hslot), encodes_of_wellFormed rfl rfl,
    fun w hw hne => illegalWord_of_not_zeroFields hw fun hz => hne ?_⟩
  · have hslot (value) (q : Fin 16) := palconvSlot_eq_ite hp (hslots q) value
    rw [exec_palconv, palconvCheck_of_slots hp hcount hslots, attempt_none, palconvRun, funext (hslot _),
      funext (hslot _)]
  · simp only [ZeroFields, zeroFields, List.forall_mem_cons, field] at hz
    apply BitVec.eq_of_toNat_eq
    change w.toNat = 0x40000000
    omega

/-- Settles O56: the memories are empty, every register is 0, and the parameters are any valid set. -/
theorem invariantHoldsAtReset : Obligations.InvariantHoldsAtReset where
  params := Config.params_valid
  src := Memory.wf_nil _
  dst := Memory.wf_nil _
  fault := Nat.zero_le 5
  len := Nat.zero_le _
  palFw i := by simp [State.reset]

end Sys2Proof.Proofs
end

section
/-! The pixel functions of spec/41_pixel_packer.md. ENC, DEC and MASK are ORs of shifted bits, which gives
their closed forms. The pixels of a byte determine it, and DEC turns AND and OR of bytes into AND and OR of colours, so the
laws of R119 are proved pixel by pixel. -/

namespace Sys2Proof.Machine

open Sys2Proof.Claims
open Config (Params)

variable {p : Params} {m : Mode} {off off' c c' b : Nat}

/-! ## The OR of shifted bits -/

theorem toNat_placeBit (bit : Bool) {n : Nat} (hn : n < 8) : (placeBit bit n).toNat = bit.toNat <<< n := by
  apply Nat.eq_of_testBit_eq
  intro k
  rw [BitVec.testBit_toNat, getLsbD_placeBit bit hn, testBit_toNat_shiftLeft]

/-- A fragment as a number: the OR over j of `c[j] << POS(mode, off, j)` (R114). -/
theorem toNat_encPixel (p : Params) (m : Mode) (c off : Nat) :
    (encPixel p m c off).toNat =
      (List.range m.bpp).foldl (fun v j => v ||| (c.testBit j).toNat <<< pixelPos p m off j) 0 := by
  rw [encPixel]
  generalize m.bpp = n
  induction n with
  | zero => rfl
  | succ n ih =>
    simp only [List.range_succ, List.foldl_append, List.foldl_cons, List.foldl_nil, BitVec.toNat_or, ih,
      toNat_placeBit _ (pixelPos_lt p m off n)]

/-- Bits placed `d` higher make a number shifted left by `d`. -/
theorem foldl_or_shiftLeft_add (bit pos : Nat → Nat) (d n : Nat) :
    (List.range n).foldl (fun v j => v ||| bit j <<< (pos j + d)) 0 =
      ((List.range n).foldl (fun v j => v ||| bit j <<< pos j) 0) <<< d := by
  simp only [Nat.shiftLeft_add]
  induction n with
  | zero => rw [List.range_zero, List.foldl_nil, List.foldl_nil, Nat.zero_shiftLeft]
  | succ n ih =>
    simp only [List.range_succ, List.foldl_append, List.foldl_cons, List.foldl_nil, ih, Nat.shiftLeft_or_distrib]

/-- MASK is ENC of the largest colour (R64, R116). -/
theorem maskPixel_eq_encPixel_maxc (p : Params) (m : Mode) (off : Nat) : maskPixel p m off = encPixel p m m.maxc off := by
  refine BitVec.eq_of_getLsbD_eq fun k _ => Bool.eq_iff_iff.2 ?_
  rw [getLsbD_maskPixel, getLsbD_encPixel]
  exact exists_congr fun j => and_congr_right fun hj => by simp [testBit_maxc m hj]

/-! ## The closed forms -/

/-- ENC in the closed forms of R114. -/
theorem toNat_encPixel_eq_encForm (hc : c ≤ m.maxc) : (encPixel p m c off).toNat = encForm p m off c := by
  rw [toNat_encPixel]
  cases m with
  | mode0 =>
    simp [Mode.bpp, List.range_succ, Nat.toNat_testBit, pixelPos, mode0Position, encForm]
  | mode1 =>
    simp [Mode.bpp, List.range_succ, Nat.toNat_testBit, pixelPos, encForm, Nat.or_comm]
  | mode2 =>
    have h2 : c % 2 = c := Nat.mod_eq_of_lt (Nat.lt_succ_of_le hc)
    simp [Mode.bpp, Nat.toNat_testBit, pixelPos, encForm, h2]

/-- DEC in the closed forms of R115. -/
theorem decPixel_eq_decForm (p : Params) (m : Mode) (b off : Nat) : decPixel p m b off = decForm p m off b := by
  cases m with
  | mode0 =>
    simp [decPixel, Mode.bpp, List.range_succ, Nat.toNat_testBit, Nat.shiftRight_eq_div_pow, pixelPos, mode0Position,
      decForm]
  | mode1 =>
    simp [decPixel, Mode.bpp, List.range_succ, Nat.toNat_testBit, Nat.shiftRight_eq_div_pow, pixelPos, decForm,
      Nat.or_comm]
  | mode2 =>
    simp [decPixel, Mode.bpp, Nat.toNat_testBit, Nat.shiftRight_eq_div_pow, pixelPos, decForm]

theorem encForm_maxc (p : Params) (m : Mode) (off : Nat) : encForm p m off m.maxc = maskForm p m off := by
  cases m <;> rfl

/-- MASK in the closed forms of R116. -/
theorem toNat_maskPixel_eq_maskForm (p : Params) (m : Mode) (off : Nat) : (maskPixel p m off).toNat = maskForm p m off := by
  rw [maskPixel_eq_encPixel_maxc, toNat_encPixel_eq_encForm le_rfl, encForm_maxc]

/-! ## DEC as a map of bytes to their pixels -/

theorem maxc_eq (m : Mode) : m.maxc = 2 ^ m.bpp - 1 := by cases m <;> rfl

theorem decPixel_lt (p : Params) (m : Mode) (b off : Nat) : decPixel p m b off < 2 ^ m.bpp :=
  Nat.lt_pow_two_of_testBit _ fun k hk => by simp [testBit_decPixel, Nat.not_lt.2 hk]

/-- A decoded colour is a colour of the mode (R115). -/
theorem decPixel_le_maxc (p : Params) (m : Mode) (b off : Nat) : decPixel p m b off ≤ m.maxc :=
  maxc_eq m ▸ Nat.le_pred_of_lt (decPixel_lt p m b off)

theorem and_maxc (hc : c ≤ m.maxc) : c &&& m.maxc = c := by
  apply Nat.eq_of_testBit_eq
  intro k
  rw [Nat.testBit_and]
  by_cases hk : k < m.bpp
  · rw [testBit_maxc m hk, Bool.and_true]
  · rw [testBit_of_le_maxc hc (Nat.not_lt.1 hk), Bool.false_and]

theorem decPixel_zero (p : Params) (m : Mode) (off : Nat) : decPixel p m 0 off = 0 := by
  apply Nat.eq_of_testBit_eq
  simp [testBit_decPixel]

theorem decPixel_or (p : Params) (m : Mode) (a b off : Nat) :
    decPixel p m (a ||| b) off = decPixel p m a off ||| decPixel p m b off := by
  apply Nat.eq_of_testBit_eq
  simp [testBit_decPixel, Bool.and_or_distrib_left]

theorem decPixel_and (p : Params) (m : Mode) (a b off : Nat) :
    decPixel p m (a &&& b) off = decPixel p m a off &&& decPixel p m b off := by
  apply Nat.eq_of_testBit_eq
  intro k
  simp only [Nat.testBit_and, testBit_decPixel]
  cases decide (k < m.bpp) <;> rfl

/-- The complement of a byte has at each offset the complement of the colour. -/
theorem decPixel_compl (p : Params) (m : Mode) (v : Byte) (off : Nat) :
    decPixel p m (0xFF - v.toNat) off = m.maxc - decPixel p m v.toNat off := by
  have hbyte : 0xFF - v.toNat = 2 ^ 8 - (v.toNat + 1) := by omega
  have hcolor : m.maxc - decPixel p m v.toNat off = 2 ^ m.bpp - (decPixel p m v.toNat off + 1) := by
    rw [maxc_eq, Nat.sub_sub, Nat.add_comm]
  apply Nat.eq_of_testBit_eq
  intro k
  rw [hbyte, hcolor, Nat.testBit_two_pow_sub_succ (decPixel_lt p m v.toNat off), testBit_decPixel, testBit_decPixel,
    Nat.testBit_two_pow_sub_succ v.isLt]
  by_cases hk : k < m.bpp <;> simp [hk, pixelPos_lt]

/-- The position of an (offset, bit) pair of the mode, as a bit number of the byte (R60). -/
def bitPosition (p : Params) (m : Mode) (x : Fin m.ppb × Fin m.bpp) : Fin 8 :=
  ⟨pixelPos p m x.1 x.2, pixelPos_lt p m x.1 x.2⟩

theorem bitPosition_injective (hp : p.Valid) (m : Mode) : Function.Injective (bitPosition p m) := by
  intro x y h
  obtain ⟨hoff, hbit⟩ := pixelPos_inj hp x.1.isLt y.1.isLt x.2.isLt y.2.isLt (Fin.val_eq_of_eq h)
  exact Prod.ext (Fin.ext hoff) (Fin.ext hbit)

/-- No two pairs share a position, and there are as many pairs as bits, so every bit is a position (R60). -/
theorem bitPosition_surjective (hp : p.Valid) (m : Mode) : Function.Surjective (bitPosition p m) := by
  have hcard : Fintype.card (Fin m.ppb × Fin m.bpp) = Fintype.card (Fin 8) := by cases m <;> rfl
  exact ((Fintype.bijective_iff_injective_and_card _).2 ⟨bitPosition_injective hp m, hcard⟩).surjective

/-- Every bit of the byte is a colour bit of some pixel (R60). -/
theorem exists_pixelPos_eq (hp : p.Valid) (m : Mode) {k : Nat} (hk : k < 8) :
    ∃ off < m.ppb, ∃ j < m.bpp, pixelPos p m off j = k := by
  obtain ⟨⟨off, j⟩, h⟩ := bitPosition_surjective hp m ⟨k, hk⟩
  exact ⟨off, off.isLt, j, j.isLt, Fin.val_eq_of_eq h⟩

/-- A byte is determined by its pixels (R119h). -/
theorem eq_of_decPixel_eq (hp : p.Valid) (m : Mode) {a b : Nat} (ha : a < 256) (hb : b < 256)
    (h : ∀ o < m.ppb, decPixel p m a o = decPixel p m b o) : a = b := by
  apply Nat.eq_of_testBit_eq
  intro k
  by_cases hk : k < 8
  · obtain ⟨o, ho, j, hj, rfl⟩ := exists_pixelPos_eq hp m hk
    simpa [testBit_decPixel, hj] using congrArg (Nat.testBit · j) (h o ho)
  · have hle : 2 ^ 8 ≤ 2 ^ k := Nat.pow_le_pow_right (by decide) (Nat.not_lt.1 hk)
    rw [Nat.testBit_lt_two_pow (ha.trans_le hle), Nat.testBit_lt_two_pow (hb.trans_le hle)]

/-- `eq_of_decPixel_eq` for bytes as bit vectors. -/
theorem byte_eq_of_decPixel_eq (hp : p.Valid) (m : Mode) {u v : Byte}
    (h : ∀ o < m.ppb, decPixel p m u.toNat o = decPixel p m v.toNat o) : u = v :=
  BitVec.eq_of_toNat_eq (eq_of_decPixel_eq hp m u.isLt v.isLt h)

/-- The pixels of a fragment: the colour at its own offset (R119a), 0 at the others (R119b). -/
theorem decPixel_encPixel (hp : p.Valid) (ho : off < m.ppb) (ho' : off' < m.ppb) (hc : c ≤ m.maxc) :
    decPixel p m (encPixel p m c off).toNat off' = if off' = off then c else 0 := by
  apply Nat.eq_of_testBit_eq
  intro k
  rw [testBit_decPixel]
  by_cases hk : k < m.bpp
  · rw [BitVec.testBit_toNat, Bool.eq_iff_iff, Bool.and_eq_true, getLsbD_encPixel]
    split
    · next heq =>
      subst heq
      constructor
      · rintro ⟨-, j, hj, hbit, hpos⟩
        exact (pixelPos_inj hp ho ho' hj hk hpos).2 ▸ hbit
      · exact fun hbit => ⟨decide_eq_true hk, k, hk, hbit, rfl⟩
    · next hne =>
      rw [Nat.zero_testBit]
      refine iff_of_false ?_ Bool.false_ne_true
      rintro ⟨-, j, hj, -, hpos⟩
      exact hne (pixelPos_inj hp ho ho' hj hk hpos).1.symm
  · have hle := Nat.not_lt.1 hk
    split <;> simp [hk, testBit_of_le_maxc hc hle]

theorem decPixel_maskPixel (hp : p.Valid) (ho : off < m.ppb) (ho' : off' < m.ppb) :
    decPixel p m (maskPixel p m off).toNat off' = if off' = off then m.maxc else 0 := by
  rw [maskPixel_eq_encPixel_maxc, decPixel_encPixel hp ho ho' le_rfl]

/-- Clearing the bits of a mask makes the pixel 0 and keeps the others (R119f, g). -/
theorem decPixel_and_compl_maskPixel (hp : p.Valid) (ho : off < m.ppb) (ho' : off' < m.ppb) (b : Nat) :
    decPixel p m (b &&& (0xFF - (maskPixel p m off).toNat)) off' = if off' = off then 0 else decPixel p m b off' := by
  rw [decPixel_and, decPixel_compl, decPixel_maskPixel hp ho ho']
  split
  · rw [Nat.sub_self, Nat.and_zero]
  · rw [Nat.sub_zero, and_maxc (decPixel_le_maxc p m b off')]

/-! ## ORs over the offsets -/

theorem orOver_succ (n : Nat) (f : Nat → Nat) : orOver (n + 1) f = orOver n f ||| f n := by
  simp only [orOver, List.range_succ, List.foldl_append, List.foldl_cons, List.foldl_nil]

theorem orOver_lt {f : Nat → Nat} (hf : ∀ o, f o < 2 ^ 8) (n : Nat) : orOver n f < 2 ^ 8 := by
  induction n with
  | zero => exact Nat.two_pow_pos 8
  | succ n ih => exact orOver_succ n f ▸ Nat.or_lt_two_pow ih (hf n)

/-- The pixels of an OR of fragments, one of each of the first `n` offsets: the colour where there is a fragment, else 0. -/
theorem decPixel_orOver_encPixel (hp : p.Valid) {c : Nat → Nat} (hc : ∀ o < m.ppb, c o ≤ m.maxc) {n : Nat}
    (hn : n ≤ m.ppb) (ho : off < m.ppb) :
    decPixel p m (orOver n fun o => (encPixel p m (c o) o).toNat) off = if off < n then c off else 0 := by
  induction n with
  | zero => exact decPixel_zero p m off
  | succ n ih =>
    rw [orOver_succ, decPixel_or, ih (Nat.le_of_succ_le hn), decPixel_encPixel hp hn ho (hc n hn)]
    obtain hlt | rfl | hgt := Nat.lt_trichotomy off n
    · simp [hlt, hlt.ne, Nat.lt_succ_of_lt hlt]
    · simp
    · simp [hgt.not_gt, hgt.ne', Nat.not_lt.2 hgt]

/-- Packing and then unpacking gives the choice of colours back (R119h). -/
theorem decPixel_pack (hp : p.Valid) {c : Nat → Nat} (hc : ∀ o < m.ppb, c o ≤ m.maxc) (ho : off < m.ppb) :
    decPixel p m (orOver m.ppb fun o => (encPixel p m (c o) o).toNat) off = c off := by
  rw [decPixel_orOver_encPixel hp hc le_rfl ho, if_pos ho]

/-- Unpacking and then packing gives the byte back (R119h). -/
theorem pack_decPixel (hp : p.Valid) (m : Mode) (hb : b < 256) :
    orOver m.ppb (fun o => (encPixel p m (decPixel p m b o) o).toNat) = b :=
  eq_of_decPixel_eq hp m (orOver_lt (fun _ => BitVec.isLt _) _) hb fun _ =>
    decPixel_pack hp fun o _ => decPixel_le_maxc p m b o

/-! ## Exclusive fragments -/

/-- Fragments at different offsets share no bit (R119b). -/
theorem encPixel_and_encPixel (hp : p.Valid) (ho : off < m.ppb) (ho' : off' < m.ppb) (hne : off ≠ off') (hc : c ≤ m.maxc)
    (hc' : c' ≤ m.maxc) : encPixel p m c off &&& encPixel p m c' off' = 0 := by
  refine byte_eq_of_decPixel_eq hp m fun o hlt => ?_
  rw [BitVec.toNat_and, decPixel_and, decPixel_encPixel hp ho hlt hc, decPixel_encPixel hp ho' hlt hc']
  refine Eq.trans ?_ (decPixel_zero p m o).symm
  by_cases h : o = off
  · rw [if_neg (h.trans_ne hne), Nat.and_zero]
  · rw [if_neg h, Nat.zero_and]

/-- A fragment lies in its mask (R119c). -/
theorem encPixel_and_maskPixel (hp : p.Valid) (ho : off < m.ppb) (hc : c ≤ m.maxc) :
    encPixel p m c off &&& maskPixel p m off = encPixel p m c off := by
  refine byte_eq_of_decPixel_eq hp m fun o hlt => ?_
  rw [BitVec.toNat_and, decPixel_and, decPixel_encPixel hp ho hlt hc, decPixel_maskPixel hp ho hlt]
  split
  · exact and_maxc hc
  · exact Nat.and_zero 0

/-- The masks cover the byte, which is the one whose every pixel is MAXC (R119d). -/
theorem orOver_maskPixel (hp : p.Valid) (m : Mode) : orOver m.ppb (fun o => (maskPixel p m o).toNat) = 0xFF := by
  simp only [maskPixel_eq_encPixel_maxc]
  refine eq_of_decPixel_eq hp m (orOver_lt (fun _ => BitVec.isLt _) _) (by decide) fun o ho => ?_
  rw [decPixel_pack (c := fun _ => m.maxc) hp (fun _ _ => le_rfl) ho]
  have hcompl : decPixel p m 0xFF o = m.maxc - decPixel p m 0 o := decPixel_compl p m 0 o
  rw [hcompl, decPixel_zero, Nat.sub_zero]

/-- A fragment determines its colour (R119e). -/
theorem encPixel_inj (hp : p.Valid) (ho : off < m.ppb) (hc : c ≤ m.maxc) (hc' : c' ≤ m.maxc)
    (h : encPixel p m c off = encPixel p m c' off) : c = c' := by
  have hdec := decPixel_encPixel hp ho ho hc
  rwa [h, decPixel_encPixel hp ho ho hc', if_pos rfl, if_pos rfl, eq_comm] at hdec

/-! ## The shift law -/

/-- The fragment of one colour bit is its position. -/
theorem toNat_encPixel_two_pow (p : Params) (off : Nat) {j : Nat} (hj : j < m.bpp) :
    (encPixel p m (2 ^ j) off).toNat = 2 ^ pixelPos p m off j := by
  apply Nat.eq_of_testBit_eq
  intro k
  rw [BitVec.testBit_toNat, Bool.eq_iff_iff, getLsbD_encPixel, Nat.testBit_two_pow, decide_eq_true_iff]
  constructor
  · rintro ⟨i, -, hi, rfl⟩
    rw [Nat.testBit_two_pow, decide_eq_true_iff] at hi
    rw [hi]
  · exact fun h => ⟨j, hj, Nat.testBit_two_pow_self, h⟩

/-- The fragments at one offset are those at another shifted left by `d` exactly when each position is `d` higher (R120). -/
theorem encPixel_eq_shiftLeft_iff {d : Nat} :
    (∀ c ≤ m.maxc, (encPixel p m c off).toNat = (encPixel p m c off').toNat <<< d) ↔
      ∀ j < m.bpp, pixelPos p m off j = pixelPos p m off' j + d := by
  constructor
  · intro h j hj
    have hle : 2 ^ j ≤ m.maxc := by
      rw [maxc_eq]
      exact Nat.le_pred_of_lt (Nat.pow_lt_pow_right (by decide) hj)
    have hpow := h _ hle
    rw [toNat_encPixel_two_pow p off hj, toNat_encPixel_two_pow p off' hj, Nat.shiftLeft_eq, ← pow_add] at hpow
    exact Nat.pow_right_injective le_rfl hpow
  · intro h c _
    rw [toNat_encPixel, toNat_encPixel, ← foldl_or_shiftLeft_add (fun j => (c.testBit j).toNat)]
    refine List.foldl_ext _ _ _ fun v j hj => ?_
    rw [h j (List.mem_range.1 hj)]

/-- Each position of each offset is SHIFT(off) above that of the rightmost pixel. -/
def PositionsShift (p : Params) (m : Mode) : Prop :=
  ∀ off < m.ppb, ∀ j < m.bpp, pixelPos p m off j = pixelPos p m (m.ppb - 1) j + (m.ppb - 1 - off)

theorem positionsShift_mode1 (p : Params) : PositionsShift p .mode1 := by
  intro off ho j _
  simp only [pixelPos, Mode.ppb] at ho ⊢
  split <;> omega

theorem positionsShift_mode2 (p : Params) : PositionsShift p .mode2 := by
  intro off ho j _
  simp only [pixelPos, Mode.ppb] at ho ⊢
  omega

/-- The condition of R120 for Mode0. -/
theorem positionsShift_mode0_iff (p : Params) :
    PositionsShift p .mode0 ↔
      p.mode0Off0.p0.val = p.mode0Off1.p0.val + 1 ∧ p.mode0Off0.p1.val = p.mode0Off1.p1.val + 1 ∧
        p.mode0Off0.p2.val = p.mode0Off1.p2.val + 1 ∧ p.mode0Off0.p3.val = p.mode0Off1.p3.val + 1 := by
  constructor
  · intro h
    have h0 := h 0 (by decide)
    exact ⟨h0 0 (by decide), h0 1 (by decide), h0 2 (by decide), h0 3 (by decide)⟩
  · rintro ⟨h0, h1, h2, h3⟩ off ho j hj
    simp only [Mode.ppb, Mode.bpp] at ho hj
    interval_cases off
    · interval_cases j
      · exact h0
      · exact h1
      · exact h2
      · exact h3
    · rfl

/-- The shift law in terms of positions: masks are fragments of MAXC, so they add nothing to it (R120). -/
theorem shiftLaw_iff_positionsShift :
    (∀ c off, c ≤ m.maxc → off < m.ppb →
        (encPixel p m c off).toNat = (encPixel p m c (m.ppb - 1)).toNat <<< (m.ppb - 1 - off) ∧
        (maskPixel p m off).toNat = (maskPixel p m (m.ppb - 1)).toNat <<< (m.ppb - 1 - off)) ↔ PositionsShift p m := by
  constructor
  · exact fun h off ho => encPixel_eq_shiftLeft_iff.1 fun c hc => (h c off hc ho).1
  · intro h c off hc ho
    have hshift := encPixel_eq_shiftLeft_iff.2 (h off ho)
    rw [maskPixel_eq_encPixel_maxc, maskPixel_eq_encPixel_maxc]
    exact ⟨hshift c hc, hshift _ le_rfl⟩

end Sys2Proof.Machine
end

section
/-! The commands of spec/41_pixel_packer.md: what each answers for a mode, for operands outside, and its words. -/

namespace Sys2Proof.Machine

open Sys2Proof.Claims

variable {s : State} {mf : ModeField} {m : Mode} {off c b : Nat}

/-! ## The two checks -/

theorem checkOffset_of_le (h : m.ppb ≤ off) : checkOffset m off = some .outOfRange := if_pos h

theorem checkOffsetColor_of_outside (h : m.ppb ≤ off ∨ m.maxc < c) : checkOffsetColor m off c = some .outOfRange := by
  refine (checkOffsetColor_cases m off c).resolve_left fun hnone => ?_
  have := checkOffsetColor_eq_none.1 hnone
  omega

/-- An execute phase behind an offset below PPB runs. -/
theorem attempt_checkOffset_of_lt (h : off < m.ppb) (run : State → State) :
    attempt (checkOffset m off) run s = .next (run s) := by
  rw [checkOffset_eq_none.2 h, attempt_none]

/-- An offset from PPB on is recorded and nothing else (R111, R184). -/
theorem attempt_checkOffset_of_le (h : m.ppb ≤ off) (run : State → State) :
    attempt (checkOffset m off) run s = .next { s with statusFault := 3 } := by
  rw [checkOffset_of_le h, attempt_some]
  rfl

/-! ## ENC, DEC, MASK and SHIFT of a mode -/

theorem exec_enc (hm : mf.mode = some m) (ho : off < m.ppb) (hc : c ≤ m.maxc) :
    exec (.enc mf off c) s = .next (s.setRes (encPixel s.params m c off).toNat) := by
  rw [exec, execEnc, withMode_some hm, checkOffsetColor_eq_none.2 ⟨ho, hc⟩, attempt_none]

theorem exec_dec (hm : mf.mode = some m) (ho : off < m.ppb) (b : Nat) :
    exec (.dec mf off b) s = .next (s.setRes (decPixel s.params m b off)) :=
  (withMode_some hm s _).trans (attempt_checkOffset_of_lt ho _)

theorem exec_mask (hm : mf.mode = some m) (ho : off < m.ppb) :
    exec (.mask mf off) s = .next (s.setRes (maskPixel s.params m off).toNat) :=
  (withMode_some hm s _).trans (attempt_checkOffset_of_lt ho _)

theorem exec_shift (hm : mf.mode = some m) (ho : off < m.ppb) :
    exec (.shift mf off) s = .next (s.setRes (m.ppb - 1 - off)) :=
  (withMode_some hm s _).trans (attempt_checkOffset_of_lt ho _)

theorem raises_enc (hm : mf.mode = some m) (h : m.ppb ≤ off ∨ m.maxc < c) : Raises (.enc mf off c) s 3 := by
  rw [Raises, exec, execEnc, withMode_some hm, checkOffsetColor_of_outside h, attempt_some]
  rfl

theorem raises_dec (hm : mf.mode = some m) (h : m.ppb ≤ off) (b : Nat) : Raises (.dec mf off b) s 3 :=
  (withMode_some hm s _).trans (attempt_checkOffset_of_le h _)

theorem raises_mask (hm : mf.mode = some m) (h : m.ppb ≤ off) : Raises (.mask mf off) s 3 :=
  (withMode_some hm s _).trans (attempt_checkOffset_of_le h _)

theorem raises_shift (hm : mf.mode = some m) (h : m.ppb ≤ off) : Raises (.shift mf off) s 3 :=
  (withMode_some hm s _).trans (attempt_checkOffset_of_le h _)

/-! ## Words -/

/-- A word of ENC or DEC with RSV or ARG[23:16] not 0 is illegal (R72, R76). -/
theorem illegalWord_of_rsv_or_arg {w : Word} {op : Nat} (hop : zeroFields op = [(24, 2), (16, 8)])
    (hw : w.toNat / 2 ^ 28 = op) (hne : w.toNat / 2 ^ 24 % 4 ≠ 0 ∨ w.toNat / 2 ^ 16 % 2 ^ 8 ≠ 0) : IllegalWord w := by
  refine illegalWord_of_not_zeroFields hw fun hz => ?_
  simp only [ZeroFields, hop, List.forall_mem_cons, field] at hz
  omega

/-- A word of MASK or SHIFT with RSV, ARG[23:16] or ARG[7:0] not 0 is illegal (R72, R76). -/
theorem illegalWord_of_rsv_or_arg_or_low {w : Word} {op : Nat} (hop : zeroFields op = [(24, 2), (16, 8), (0, 8)])
    (hw : w.toNat / 2 ^ 28 = op)
    (hne : w.toNat / 2 ^ 24 % 4 ≠ 0 ∨ w.toNat / 2 ^ 16 % 2 ^ 8 ≠ 0 ∨ w.toNat % 2 ^ 8 ≠ 0) : IllegalWord w := by
  refine illegalWord_of_not_zeroFields hw fun hz => ?_
  simp only [ZeroFields, hop, List.forall_mem_cons, field] at hz
  omega

theorem enc_encodes (ho : off < 256) (hc : c < 256) :
    Encodes (0x50000000 + mf.number * 2 ^ 26 + off * 2 ^ 8 + c) (.enc mf off c) :=
  encodes_of_wellFormed (by simp [Instr.WellFormed, *]) (by simp only [Instr.opcode, Instr.modeNumber, Instr.arg]; omega)

theorem dec_encodes (ho : off < 256) (hb : b < 256) :
    Encodes (0x60000000 + mf.number * 2 ^ 26 + off * 2 ^ 8 + b) (.dec mf off b) :=
  encodes_of_wellFormed (by simp [Instr.WellFormed, *]) (by simp only [Instr.opcode, Instr.modeNumber, Instr.arg]; omega)

theorem mask_encodes (ho : off < 256) : Encodes (0x70000000 + mf.number * 2 ^ 26 + off * 2 ^ 8) (.mask mf off) :=
  encodes_of_wellFormed (by simp [Instr.WellFormed, ho]) (by simp only [Instr.opcode, Instr.modeNumber, Instr.arg]; omega)

theorem shift_encodes (ho : off < 256) : Encodes (0x80000000 + mf.number * 2 ^ 26 + off * 2 ^ 8) (.shift mf off) :=
  encodes_of_wellFormed (by simp [Instr.WellFormed, ho]) (by simp only [Instr.opcode, Instr.modeNumber, Instr.arg]; omega)

theorem ppb_encodes (mf : ModeField) : Encodes (0x90000000 + mf.number * 2 ^ 26) (.ppb mf) :=
  encodes_of_wellFormed rfl (by simp only [Instr.opcode, Instr.modeNumber, Instr.arg]; omega)

end Sys2Proof.Machine
end

section
/-! The statements about the pixel packer (spec/41_pixel_packer.md) settled. -/

namespace Sys2Proof.Proofs

open Sys2Proof.Machine Sys2Proof.Claims

/-- Settles O24: the fragment has its closed form, and the check that fails is recorded. -/
theorem encPacksOnePixel : Obligations.EncPacksOnePixel := by
  refine ⟨fun s mf m off c hm ho hc => ?_, fun _ _ _ => rfl, fun _ _ _ _ _ hm => raises_enc hm, fun _ _ _ => enc_encodes,
    fun _ => illegalWord_of_rsv_or_arg rfl⟩
  rw [← toNat_encPixel_eq_encForm hc]
  exact exec_enc hm ho hc

/-- Settles O25: the decoded colour has its closed form, for any byte. -/
theorem decUnpacksOnePixel : Obligations.DecUnpacksOnePixel := by
  refine ⟨fun s mf m off b hm ho _ => ?_, fun _ _ _ => rfl, fun _ _ _ _ _ hm h => raises_dec hm h _,
    fun _ _ _ => dec_encodes, fun _ => illegalWord_of_rsv_or_arg rfl⟩
  rw [← decPixel_eq_decForm]
  exact exec_dec hm ho b

/-- Settles O26: the mask has its closed form and is the fragment of MAXC. -/
theorem maskGivesThePixelBits : Obligations.MaskGivesThePixelBits := by
  refine ⟨fun s mf m off hm ho => ⟨?_, ?_⟩, fun _ _ => rfl, fun _ _ _ _ hm => raises_mask hm, fun _ _ => mask_encodes,
    fun _ => illegalWord_of_rsv_or_arg_or_low rfl⟩
  · rw [← toNat_maskPixel_eq_maskForm]
    exact exec_mask hm ho
  · rw [exec_mask hm ho, exec_enc hm ho le_rfl, maskPixel_eq_encPixel_maxc]

/-- Settles O29: a fragment in RES is below 256, and its pixel at its own offset is the colour. -/
theorem decodeOfAnEncodedPixel : Obligations.DecodeOfAnEncodedPixel := by
  intro s mf m off c hp hm ho hc
  refine ⟨_, exec_enc hm ho hc, (exec_dec hm ho _).trans ?_⟩
  have hres : (s.setRes (encPixel s.params m c off).toNat).res.toNat = (encPixel s.params m c off).toNat :=
    Nat.mod_eq_of_lt ((BitVec.isLt _).trans (by decide))
  rw [hres, State.setRes_params, decPixel_encPixel hp ho ho hc, if_pos rfl]
  rfl

/-- Settles O30, clause by clause; a mask is the fragment of MAXC. -/
theorem fragmentsAreExclusiveAndCover : Obligations.FragmentsAreExclusiveAndCover := by
  refine fun p m hp => ⟨fun _ _ _ _ => encPixel_and_encPixel hp, fun off off' ho ho' hne => ?_,
    fun _ _ => encPixel_and_maskPixel hp, orOver_maskPixel hp m, fun _ _ _ => encPixel_inj hp⟩
  rw [maskPixel_eq_encPixel_maxc, maskPixel_eq_encPixel_maxc]
  exact encPixel_and_encPixel hp ho ho' hne le_rfl le_rfl

/-- Settles O31: DEC of the new byte is the OR of what the clearing leaves and of the fragment's pixel. -/
theorem replacingOnePixel : Obligations.ReplacingOnePixel := by
  intro p m b off off' c hp _ ho ho' hc
  simp only [decPixel_or]
  refine ⟨?_, fun hne => ?_⟩
  · rw [decPixel_and_compl_maskPixel hp ho ho, decPixel_encPixel hp ho ho hc, if_pos rfl, if_pos rfl, Nat.zero_or]
  · rw [decPixel_and_compl_maskPixel hp ho ho', decPixel_encPixel hp ho ho' hc, if_neg hne, if_neg hne, Nat.or_zero]
    exact ⟨rfl, rfl⟩

/-- Settles O32: the two round trips of packing. -/
theorem packAndUnpackAreInverse : Obligations.PackAndUnpackAreInverse :=
  fun p m hp => ⟨fun _ hc _ => decPixel_pack hp hc,
    fun b hb => ⟨fun o _ => decPixel_le_maxc p m b o, pack_decPixel hp m hb⟩⟩

/-- Settles O33: the law is one of the positions, which Mode1 and Mode2 obey and Mode0 under its condition. -/
theorem shiftLaw : Obligations.ShiftLaw := by
  refine ⟨fun p m _ => shiftLaw_iff_positionsShift.trans ?_, fun p => ⟨?_, ?_⟩, fun p h0 h1 => ?_⟩
  · cases m with
    | mode0 => simp [positionsShift_mode0_iff]
    | mode1 => simp [positionsShift_mode1]
    | mode2 => simp [positionsShift_mode2]
  · exact BitVec.eq_of_toNat_eq (toNat_maskPixel_eq_maskForm p .mode2 7)
  · exact BitVec.eq_of_toNat_eq (toNat_maskPixel_eq_maskForm p .mode1 3)
  · have hmask : (maskPixel p .mode0 1).toNat = 0x55 := by
      simp [toNat_maskPixel_eq_maskForm, maskForm, h1]
    rw [h0, h1]
    exact ⟨rfl, rfl, rfl, rfl, BitVec.eq_of_toNat_eq hmask⟩

/-- Settles O27: SHIFT of each mode, and its check that fails. -/
theorem shiftGivesTheShiftConstant : Obligations.ShiftGivesTheShiftConstant :=
  ⟨fun _ _ => exec_shift (mf := .m0) rfl, fun _ _ => exec_shift (mf := .m1) rfl, fun _ _ => exec_shift (mf := .m2) rfl,
    fun _ _ => rfl, fun _ _ => raises_shift (mf := .m0) rfl, fun _ _ => raises_shift (mf := .m1) rfl,
    fun _ _ => raises_shift (mf := .m2) rfl, fun _ _ => shift_encodes, fun _ => illegalWord_of_rsv_or_arg_or_low rfl⟩

/-- Settles O28: PPB of each mode; its must-be-zero fields are RSV and ARG. -/
theorem ppbGivesThePixelsPerByte : Obligations.PpbGivesThePixelsPerByte := by
  refine ⟨fun _ => rfl, fun _ => rfl, fun _ => rfl, fun _ => rfl, ppb_encodes,
    fun w hw hne => illegalWord_of_not_zeroFields hw fun hz => ?_⟩
  simp only [ZeroFields, zeroFields, List.forall_mem_cons, field] at hz
  omega

end Sys2Proof.Proofs
end

section
/-! The command SPRITE (spec/42_sprite_mask_generator.md): the fragments that go to one byte of the buffer make its closed form
(R141), the layout counts each byte once (R133), and each check is recorded in its place (R134). -/

namespace Sys2Proof.Machine

open Sys2Proof.Claims

variable {s u : State} {mf : ModeField} {m : Mode} {t k y x col : Nat} {oobm io im : Bool}

/-! ## ORs of fragments -/

theorem testBit_orOver {n b : Nat} {f : Nat → Nat} :
    (orOver n f).testBit b = true ↔ ∃ off < n, (f off).testBit b = true := by
  induction n with
  | zero => simp [orOver]
  | succ n ih =>
    simp only [orOver_succ, Nat.testBit_or, Bool.or_eq_true, ih, Nat.lt_succ_iff_lt_or_eq, or_and_right, exists_or,
      exists_eq_left]

theorem orOver_congr {n : Nat} {f g : Nat → Nat} (h : ∀ off < n, f off = g off) : orOver n f = orOver n g :=
  List.foldl_ext _ _ _ fun v off hoff => by rw [h off (List.mem_range.1 hoff)]

/-- The byte at `a` is the OR of `f`, where the fragments that go there are the values of `f`, zeros apart. -/
theorem toNat_gather_eq_orOver {ws : List (Nat × Byte)} {a n : Nat} {f : Nat → Byte}
    (hsound : ∀ v, (a, v) ∈ ws → ∃ off < n, v = f off) (hcomplete : ∀ off < n, f off = 0 ∨ (a, f off) ∈ ws) :
    (Memory.gather ws a).toNat = orOver n fun off => (f off).toNat := by
  apply Nat.eq_of_testBit_eq
  intro b
  rw [Bool.eq_iff_iff, testBit_orOver, BitVec.testBit_toNat, Memory.getLsbD_gather]
  simp only [BitVec.testBit_toNat]
  constructor
  · rintro ⟨⟨a', v⟩, hw, rfl, hb⟩
    obtain ⟨off, hoff, rfl⟩ := hsound v hw
    exact ⟨off, hoff, hb⟩
  · rintro ⟨off, hoff, hb⟩
    obtain hzero | hw := hcomplete off hoff
    · rw [hzero, BitVec.ofNat_eq_ofNat, BitVec.getLsbD_zero] at hb
      cases hb
    · exact ⟨_, hw, rfl, hb⟩

/-! ## The bytes of the buffer -/

/-- What SPRITE leaves when its checks pass (R131). -/
def spriteRun (m : Mode) (t : Nat) (oobm io im : Bool) (s : State) : State :=
  s.pack (spriteLength m io im s) (spriteWrites m t oobm io im s)

theorem spriteLength_eq_spriteLen (m : Mode) (io im : Bool) (s : State) : spriteLength m io im s = spriteLen m io im s :=
  congrArg (· * np m io) (Nat.mul_assoc _ _ _).symm

theorem spriteColor_eq (t : Nat) (s : State) (k y x : Nat) : spriteColor t s k y x = positionColor t s k y x := by
  unfold spriteColor positionColor
  split
  · next h => rw [Nat.add_sub_assoc h]; rfl
  · rfl

/-- The data lane of a column (R68). -/
theorem dataLane_lt (im : Bool) : maskCoefficient im - 1 < maskCoefficient im := Nat.sub_lt (maskCoefficient_pos im) one_pos

/-- The fragments that go to a data byte are those of the positions of its column. -/
theorem toNat_gather_dataAddr (hw : s.width % m.ppb = 0) (hk : k < numPages m io) (hy : y < s.height)
    (hc : col < bytesPerRow m s) :
    (Memory.gather (spriteWrites m t oobm io im s) (dataAddr m im s k y col)).toNat =
      orOver m.ppb fun off => (encPixel s.params m (positionColor t s k y (col * m.ppb + off)) off).toNat := by
  refine toNat_gather_eq_orOver (fun v hv => ?_) fun off hoff => .inr ?_
  · obtain ⟨k', -, y', hy', x', hx', h | ⟨him, -, h⟩⟩ := mem_spriteWrites.1 hv
    · obtain ⟨haddr, rfl⟩ := Prod.mk.inj h
      obtain ⟨rfl, rfl, rfl, -⟩ :=
        columnAddr_inj hy hc (dataLane_lt im) hy' (column_lt hw hx') (dataLane_lt im) haddr
      exact ⟨x' % m.ppb, Nat.mod_lt _ m.ppb_pos, by rw [pixel_split]⟩
    · obtain ⟨haddr, -⟩ := Prod.mk.inj h
      obtain ⟨-, -, -, hlane⟩ :=
        columnAddr_inj hy hc (dataLane_lt im) hy' (column_lt hw hx') (l' := 0) (maskCoefficient_pos im) haddr
      subst him
      cases hlane
  · refine mem_spriteWrites.2 ⟨k, hk, y, hy, col * m.ppb + off, pixel_lt hc hoff, .inl ?_⟩
    rw [pixel_div hoff, pixel_mod hoff]

/-- The fragments that go to a mask byte are the masks of the masked positions of its column. -/
theorem toNat_gather_columnAddr (hw : s.width % m.ppb = 0) (hk : k < numPages m io) (hy : y < s.height)
    (hc : col < bytesPerRow m s) :
    (Memory.gather (spriteWrites m t oobm io true s) (columnAddr m true s k y col)).toNat =
      orOver m.ppb fun off =>
        (if positionMasked t oobm s k y (col * m.ppb + off) = true then maskPixel s.params m off else 0).toNat := by
  refine toNat_gather_eq_orOver (fun v hv => ?_) fun off hoff => ?_
  · obtain ⟨k', -, y', hy', x', hx', h | ⟨-, hmasked, h⟩⟩ := mem_spriteWrites.1 hv
    · obtain ⟨haddr, -⟩ := Prod.mk.inj h
      obtain ⟨-, -, -, hlane⟩ :=
        columnAddr_inj hy hc (l := 0) (maskCoefficient_pos true) hy' (column_lt hw hx') (dataLane_lt true) haddr
      cases hlane
    · obtain ⟨haddr, rfl⟩ := Prod.mk.inj h
      obtain ⟨rfl, rfl, rfl, -⟩ := columnAddr_inj hy hc (l := 0) (maskCoefficient_pos true) hy' (column_lt hw hx')
        (l' := 0) (maskCoefficient_pos true) haddr
      exact ⟨x' % m.ppb, Nat.mod_lt _ m.ppb_pos, by rw [pixel_split, if_pos hmasked]⟩
  · split
    · next hmasked =>
      refine .inr (mem_spriteWrites.2 ⟨k, hk, y, hy, col * m.ppb + off, pixel_lt hc hoff, .inr ⟨rfl, hmasked, ?_⟩⟩)
      rw [pixel_div hoff, pixel_mod hoff]
    · exact .inl rfl

theorem dstByte_spriteRun {a : Nat} (h : a < spriteLength m io im s) :
    dstByte (spriteRun m t oobm io im s) a = (Memory.gather (spriteWrites m t oobm io im s) a).toNat := by
  rw [dstByte, spriteRun, State.memRead_pack, if_pos h]

/-- A data byte: the OR of the fragments of its positions' colours (R141). -/
theorem dstByte_dataAddr (hw : s.width % m.ppb = 0) (hk : k < numPages m io) (hy : y < s.height)
    (hc : col < bytesPerRow m s) :
    dstByte (spriteRun m t oobm io im s) (dataAddr m im s k y col) =
      orOver m.ppb fun off => (encPixel s.params m (positionColor t s k y (col * m.ppb + off)) off).toNat :=
  (dstByte_spriteRun (columnAddr_lt hk hy hc (dataLane_lt im))).trans (toNat_gather_dataAddr hw hk hy hc)

/-- A mask byte in the closed form of R141. -/
theorem dstByte_columnAddr (hw : s.width % m.ppb = 0) (hk : k < numPages m io) (hy : y < s.height)
    (hc : col < bytesPerRow m s) :
    dstByte (spriteRun m t oobm io true s) (columnAddr m true s k y col) = spriteMask m t oobm s k y col := by
  have hlt : columnAddr m true s k y col < spriteLength m io true s :=
    columnAddr_lt (l := 0) hk hy hc (maskCoefficient_pos true)
  rw [dstByte_spriteRun hlt, toNat_gather_columnAddr hw hk hy hc]
  refine orOver_congr fun off _ => ?_
  simp only [positionMasked, Bool.and_eq_true, Bool.or_eq_true, decide_eq_true_eq, spriteColor_eq,
    ← toNat_maskPixel_eq_maskForm]
  split <;> rfl

/-- SPRITE changes no byte at or above its length (R142). -/
theorem memRead_spriteRun_of_le (hw : s.width % m.ppb = 0) {a : Nat} (h : spriteLength m io im s ≤ a) :
    (spriteRun m t oobm io im s).memRead .dst a = s.memRead .dst a := by
  have hnone : Memory.gather (spriteWrites m t oobm io im s) a = 0 :=
    Memory.gather_eq_zero fun w hmem => ((spriteWrites_lt hw hmem).trans_le h).ne
  rw [spriteRun, State.memRead_pack, if_neg (Nat.not_lt.2 h), hnone]
  exact BitVec.or_zero

/-! ## The pre-flight -/

theorem spriteCheck_eq_none_iff_spriteOk : spriteCheck m t io im s = none ↔ SpriteOk m t io im s := by
  rw [spriteCheck_eq_none, spriteLength_eq_spriteLen]
  constructor
  · rintro ⟨hsentinel, hwidth, hheight, hsource, hbuffer, hindices⟩
    exact ⟨hsentinel, hwidth, Nat.pos_of_ne_zero hheight, hsource, hbuffer, hindices⟩
  · rintro ⟨hsentinel, hwidth, hheight, hsource, hbuffer, hindices⟩
    exact ⟨hsentinel, hwidth, hheight.ne', hsource, hbuffer, hindices⟩

theorem exec_sprite (hm : mf.mode = some m) :
    exec (.sprite mf t oobm io im) s = attempt (spriteCheck m t io im s) (spriteRun m t oobm io im) s :=
  withMode_some hm s _

theorem exec_sprite_of_spriteOk (hm : mf.mode = some m) (h : SpriteOk m t io im s) :
    exec (.sprite mf t oobm io im) s = .next (spriteRun m t oobm io im s) := by
  rw [exec_sprite hm, spriteCheck_eq_none_iff_spriteOk.2 h, attempt_none]

/-- A SPRITE that completes without a fault has passed its checks (R134, R186). -/
theorem spriteOk_of_exec (hm : mf.mode = some m) (h : exec (.sprite mf t oobm io im) s = .next u)
    (hu : u.statusFault = 0) : SpriteOk m t io im s ∧ u = spriteRun m t oobm io im s := by
  rw [exec_sprite hm] at h
  obtain ⟨f, -, rfl⟩ | ⟨hnone, rfl⟩ := attempt_eq_next.1 h
  · cases f <;> cases hu
  · exact ⟨spriteCheck_eq_none_iff_spriteOk.1 hnone, rfl⟩

/-- A check of SPRITE that fails is recorded and nothing else (R134, R184). -/
theorem raises_sprite {f : FaultCode} (hm : mf.mode = some m) (h : spriteCheck m t io im s = some f) :
    Raises (.sprite mf t oobm io im) s f.code := by
  rw [Raises, exec_sprite hm, h]
  rfl

theorem spriteCheck_of_sentinel (hio : io = true) (ht : m.maxc < t) : spriteCheck m t io im s = some .outOfRange :=
  if_pos ⟨hio, ht⟩

theorem not_sentinelTooLarge (ht : io = true → t ≤ m.maxc) : ¬ (io = true ∧ m.maxc < t) :=
  fun ⟨hio, hlt⟩ => Nat.not_lt.2 (ht hio) hlt

theorem spriteCheck_of_dimensions (ht : io = true → t ≤ m.maxc) (h : s.width % m.ppb ≠ 0 ∨ s.height = 0) :
    spriteCheck m t io im s = some .invalidDimensions := by
  rw [spriteCheck, if_neg (not_sentinelTooLarge ht), if_pos h]

theorem spriteCheck_of_bufferRange (ht : io = true → t ≤ m.maxc) (hw : s.width % m.ppb = 0) (hh : s.height ≠ 0)
    (h : s.params.srcSize < s.width * s.height ∨ s.params.dstSize < spriteLen m io im s) :
    spriteCheck m t io im s = some .bufferRange := by
  rw [← spriteLength_eq_spriteLen] at h
  rw [spriteCheck, if_neg (not_sentinelTooLarge ht), if_neg (not_or.2 ⟨not_not.2 hw, hh⟩), if_pos h]

theorem spriteCheck_of_indices (ht : io = true → t ≤ m.maxc) (hw : s.width % m.ppb = 0) (hh : s.height ≠ 0)
    (hsrc : s.width * s.height ≤ s.params.srcSize) (hbuf : spriteLen m io im s ≤ s.params.dstSize) (h : ¬ SourceOk m s) :
    spriteCheck m t io im s = some .outOfRange := by
  rw [← spriteLength_eq_spriteLen] at hbuf
  rw [spriteCheck, if_neg (not_sentinelTooLarge ht), if_neg (not_or.2 ⟨not_not.2 hw, hh⟩),
    if_neg (not_or.2 ⟨Nat.not_lt.2 hsrc, Nat.not_lt.2 hbuf⟩), if_neg (mt State.sourceInRange_eq_true.1 h)]

/-- The word of SPRITE in the form of R78. -/
theorem sprite_encodes (ht : t < 16) :
    Encodes (0xA0000000 + mf.number * 2 ^ 26 + t * 2 ^ 4 + oobm.toNat * 2 ^ 2 + io.toNat * 2 + im.toNat)
      (.sprite mf t oobm io im) :=
  encodes_of_wellFormed (by simp [Instr.WellFormed, ht]) (by simp only [Instr.opcode, Instr.modeNumber, Instr.arg]; omega)

/-! ## The closed form of a data byte -/

/-- The colour of every position is a colour of the mode: only a page other than 0 shows the sentinel, and with pages it is
checked (R134 checks 3 and 6, R136). -/
theorem positionColor_le_maxc (h : SpriteOk m t io im s) (hk : k < numPages m io) (hy : y < s.height)
    (hx : x < s.width) : positionColor t s k y x ≤ m.maxc := by
  unfold positionColor
  split
  · exact h.indices _ (source_lt hy ((Nat.sub_le x k).trans_lt hx))
  · next hkx =>
    refine h.sentinel ?_
    by_contra hio
    rw [Bool.not_eq_true] at hio
    subst hio
    exact hkx ((Nat.lt_one_iff.1 hk).trans_le (Nat.zero_le x))

/-- A data byte in the closed form of R141. -/
theorem orOver_encPixel_eq_spriteData (h : SpriteOk m t io im s) (hk : k < numPages m io) (hy : y < s.height)
    (hc : col < bytesPerRow m s) :
    (orOver m.ppb fun off => (encPixel s.params m (positionColor t s k y (col * m.ppb + off)) off).toNat) =
      spriteData m t s k y col :=
  orOver_congr fun off hoff => by
    rw [toNat_encPixel_eq_encForm (positionColor_le_maxc h hk hy (pixel_lt hc hoff)), spriteColor_eq]

/-! ## The layout -/

theorem exists_radix {A B a : Nat} (h : a < A * B) : ∃ q < A, ∃ r < B, a = q * B + r :=
  ⟨a / B, Nat.div_lt_of_lt_mul (Nat.mul_comm A B ▸ h), a % B, Nat.mod_lt _ (Nat.pos_of_lt_mul_left h),
    (Nat.div_add_mod' a B).symm⟩

/-- Every byte below the length is a lane of a column (R133). -/
theorem exists_columnAddr {a : Nat} (h : a < spriteLength m io im s) :
    ∃ k < numPages m io, ∃ y < s.height, ∃ col < bytesPerRow m s, ∃ lane < maskCoefficient im,
      a = columnAddr m im s k y col + lane := by
  rw [spriteLength_eq] at h
  obtain ⟨q, hq, lane, hlane, rfl⟩ := exists_radix h
  obtain ⟨r, hr, col, hcol, rfl⟩ := exists_radix hq
  obtain ⟨k, hk, y, hy, rfl⟩ := exists_radix hr
  exact ⟨k, hk, y, hy, col, hcol, lane, hlane, by rw [columnAddr_eq]⟩

/-- The last data byte is the last byte (R133). -/
theorem dataAddr_last (hh : 0 < s.height) (hb : 0 < bytesPerRow m s) :
    dataAddr m im s (numPages m io - 1) (s.height - 1) (bytesPerRow m s - 1) + 1 = spriteLength m io im s := by
  have last {A B : Nat} (hA : 0 < A) (hB : 0 < B) : (A - 1) * B + (B - 1) = A * B - 1 := by
    obtain ⟨a, rfl⟩ := Nat.exists_eq_succ_of_ne_zero hA.ne'
    rw [Nat.succ_mul, Nat.succ_sub_one]
    omega
  have hp := numPages_pos m io
  have hm := maskCoefficient_pos im
  rw [dataAddr, columnAddr_eq, spriteLength_eq, last hp hh, last (Nat.mul_pos hp hh) hb,
    last (Nat.mul_pos (Nat.mul_pos hp hh) hb) hm]
  exact Nat.sub_add_cancel (Nat.mul_pos (Nat.mul_pos (Nat.mul_pos hp hh) hb) hm)

/-! ## Page 0 -/

theorem dataAddr_page_zero (m : Mode) (im : Bool) (s : State) (y col : Nat) :
    dataAddr m im s 0 y col = (y * bpr m s + col) * mc im + (mc im - 1) := by
  rw [dataAddr, columnAddr_eq, Nat.zero_mul, Nat.zero_add]
  rfl

/-- Every position of page 0 is in bounds (R135). -/
theorem positionColor_page_zero (t : Nat) (s : State) (y x : Nat) :
    positionColor t s 0 y x = srcByte s (y * s.width + x) := if_pos (Nat.zero_le x)

/-- A data byte of page 0: the OR of the fragments of its source pixels, whatever the options (R140, R141). -/
theorem dstByte_page_zero (hw : s.width % m.ppb = 0) (hy : y < s.height) (hc : col < bytesPerRow m s) :
    dstByte (spriteRun m t oobm io im s) ((y * bpr m s + col) * mc im + (mc im - 1)) =
      orOver m.ppb fun off => (encPixel s.params m (srcByte s (y * s.width + (col * m.ppb + off))) off).toNat := by
  rw [← dataAddr_page_zero, dstByte_dataAddr hw (numPages_pos m io) hy hc]
  simp only [positionColor_page_zero]

/-! ## The flat pack -/

theorem spriteLength_flat (m : Mode) (s : State) : spriteLength m false false s = s.height * bytesPerRow m s := by
  simp [spriteLength_eq, numPages, maskCoefficient]

/-- Without masks the data byte is the whole column (R66). -/
theorem dataLane_flat (n : Nat) : n * mc false + (mc false - 1) = n := Nat.mul_one n

/-- Without masks and pages no position is out of bounds and no mask is written, so T and OOBM are not read (R140). -/
theorem spriteRun_flat (m : Mode) (t : Nat) (oobm : Bool) :
    spriteRun m t oobm false false = spriteRun m 0 false false false := by
  funext s
  simp only [spriteRun, spriteWrites, numPages, Bool.false_eq_true, if_false, List.range_one, List.flatMap_singleton,
    spriteWritesAt, positionColor_page_zero, Bool.false_and]

theorem spriteCheck_flat (m : Mode) (t : Nat) (im : Bool) (s : State) :
    spriteCheck m t false im s = spriteCheck m 0 false im s := by
  simp only [spriteCheck, Bool.false_eq_true, false_and, if_false]

/-- T and OOBM have no effect without masks and pages (R140). -/
theorem exec_sprite_flat (s : State) (mf : ModeField) (t : Nat) (oobm : Bool) :
    exec (.sprite mf t oobm false false) s = exec (.sprite mf 0 false false false) s := by
  cases hm : mf.mode with
  | none => exact (withMode_none hm s _).trans (withMode_none hm s _).symm
  | some m => rw [exec_sprite hm, exec_sprite hm, spriteCheck_flat, spriteRun_flat]

/-- What passes the checks of SPRITE passes those of FLAT, whose buffer is no longer (R79, R140). -/
theorem spriteOk_flat (h : SpriteOk m t io im s) : SpriteOk m 0 false false s where
  sentinel := nofun
  width := h.width
  height := h.height
  source := h.source
  buffer := (Nat.mul_le_mul (Nat.mul_le_mul_left _ (maskCoefficient_pos im)) (numPages_pos m io)).trans h.buffer
  indices := h.indices

end Sys2Proof.Machine
end

section
/-! The statements about SPRITE (spec/42_sprite_mask_generator.md) settled. -/

namespace Sys2Proof.Proofs

open Sys2Proof.Machine Sys2Proof.Claims

/-- Settles O34: each byte of the buffer is the OR of the fragments that go there, and no other byte has any. -/
theorem spriteWritesItsBuffer : Obligations.SpriteWritesItsBuffer := by
  intro s mf m t oobm io im hm hok
  refine ⟨_, (spriteRun m t oobm io im s).dst, exec_sprite_of_spriteOk hm hok, ?_, fun k hk y hy col hc => ⟨?_, ?_⟩,
    fun a ha => ?_⟩
  · rw [← spriteLength_eq_spriteLen]
    rfl
  · exact (dstByte_dataAddr hok.width hk hy hc).trans (orOver_encPixel_eq_spriteData hok hk hy hc)
  · rintro rfl
    exact dstByte_columnAddr hok.width hk hy hc
  · exact memRead_spriteRun_of_le hok.width (spriteLength_eq_spriteLen m io im s ▸ ha)

/-- Settles O35: LEN holds the length, and the width is PPB times the number of byte columns. -/
theorem spriteReportsItsLength : Obligations.SpriteReportsItsLength := by
  intro s mf m t oobm io im hm hok hlt
  have hlen : (spriteRun m t oobm io im s).len.toNat = spriteLen m io im s := by
    rw [spriteRun, State.pack_len, spriteLength_eq_spriteLen, BitVec.toNat_ofNat, Nat.mod_eq_of_lt hlt]
  have hwidth : bpr m s * m.ppb = s.imgW.toNat := Nat.div_mul_cancel (Nat.dvd_of_mod_eq_zero hok.width)
  have hceil : (s.imgW.toNat + (m.ppb - 1)) / m.ppb = bpr m s := by
    rw [← hwidth]
    exact pixel_div (Nat.sub_lt m.ppb_pos one_pos)
  refine ⟨_, exec_sprite_of_spriteOk hm hok, hlen, by rw [hlen, hceil]; rfl, ?_⟩
  rw [hlen, ← hwidth]
  refine ⟨?_, ?_, ?_, ?_⟩
  all_goals
    rintro rfl rfl
    simp only [spriteLen, mc, np, if_true, Bool.false_eq_true, if_false]
    ring

/-- Settles O36: the layout is a mixed radix of page, row, column and lane. -/
theorem spriteBytesAreCountedOnce : Obligations.SpriteBytesAreCountedOnce := by
  intro s m io im
  refine ⟨fun t oobm hw w => spriteWrites_lt hw, fun k y col => rfl,
    fun k hk y hy col hc lane hl => columnAddr_lt hk hy hc hl, dataAddr_last, fun a ha => ?_,
    fun t k x y hy hkx hx => ?_, fun t oobm hok => ⟨fun w hmem => ?_, fun a ha => ha.trans_le hok.source⟩⟩
  · obtain ⟨k, hk, y, hy, col, hc, lane, hl, rfl⟩ := exists_columnAddr ha
    refine ⟨k, y, col, lane, hk, hy, hc, hl, rfl, fun k' _ y' hy' col' hc' lane' hl' h => ?_⟩
    exact columnAddr_inj hy' hc' hl' hy hc hl h.symm
  · exact ⟨_, source_lt hy ((Nat.sub_le x k).trans_lt hx), rfl, if_pos hkx⟩
  · exact ((spriteWrites_lt hok.width hmem).trans_eq (spriteLength_eq_spriteLen m io im s)).trans_le hok.buffer

/-- Settles O37: each check where those before it pass; the must-be-zero fields of OP 0xA are RSV, ARG[23:8] and ARG[3]. -/
theorem spriteChecksInOrder : Obligations.SpriteChecksInOrder := by
  intro s mf m t oobm io im
  refine ⟨rfl, fun hm => ⟨fun hio ht => raises_sprite hm (spriteCheck_of_sentinel hio ht), fun ht =>
    ⟨fun hdim => raises_sprite hm (spriteCheck_of_dimensions ht hdim), fun hw hh =>
      ⟨fun hrange => raises_sprite hm (spriteCheck_of_bufferRange ht hw hh hrange), fun hsrc hbuf hbad =>
        raises_sprite hm (spriteCheck_of_indices ht hw hh hsrc hbuf hbad)⟩⟩⟩, sprite_encodes,
    fun w hw hne => illegalWord_of_not_zeroFields hw fun hz => ?_⟩
  simp only [ZeroFields, zeroFields, List.forall_mem_cons, field] at hz
  omega

/-- Settles O38: the positions of page 0 are all in bounds, so neither T nor the options change their colours. -/
theorem flatPackEqualsPageZero : Obligations.FlatPackEqualsPageZero := by
  refine ⟨exec_sprite_flat, fun s u mf m t oobm io im hm hs hexec hu => ?_⟩
  obtain ⟨hok, rfl⟩ := spriteOk_of_exec hm hexec hu
  have hflat := spriteOk_flat hok
  refine ⟨_, exec_sprite_of_spriteOk hm hflat, hs, congrArg (BitVec.ofNat 32) (spriteLength_flat m s),
    fun y hy col hc => ?_⟩
  have hbyte := dstByte_page_zero (t := t) (oobm := oobm) (io := io) (im := im) hok.width hy hc
  have hbyte' := dstByte_page_zero (t := 0) (oobm := false) (io := false) (im := false) hok.width hy hc
  rw [dataLane_flat] at hbyte'
  refine ⟨hbyte'.trans (orOver_congr fun off ho => ?_), BitVec.eq_of_toNat_eq (hbyte.trans hbyte'.symm)⟩
  have hcolor := hok.indices _ (source_lt hy (pixel_lt hc ho))
  rw [toNat_encPixel_eq_encForm hcolor, Nat.add_assoc]
  rfl

/-- Settles O39: the data byte is the OR of the fragments of its pixels, so DEC gives each of them back. -/
theorem sourceIsRecoverableFromPageZero : Obligations.SourceIsRecoverableFromPageZero := by
  intro s u mf m t oobm io im hp hm _ hexec hu y hy x hx
  obtain ⟨hok, rfl⟩ := spriteOk_of_exec hm hexec hu
  have hcol := column_lt hok.width hx
  have hcolor : ∀ off < m.ppb, srcByte s (y * s.width + (x / m.ppb * m.ppb + off)) ≤ m.maxc :=
    fun off ho => hok.indices _ (source_lt hy (pixel_lt hcol ho))
  have hdec := decPixel_pack hp hcolor (Nat.mod_lt x m.ppb_pos)
  rw [pixel_split] at hdec
  rw [exec_dec hm (Nat.mod_lt x m.ppb_pos), dstByte_page_zero hok.width hy hcol]
  exact congrArg (fun c => Host.Outcome.next ((spriteRun m t oobm io im s).setRes c)) hdec

end Sys2Proof.Proofs
end

section
/-! The address table (spec/43_screen_address_mapper.md R150 to R157): its entries line by line, the largest one, when its
rows do not overlap, what ROWADDR and ATSIZE answer, and the timing registers it is not made of. -/

namespace Sys2Proof.Machine

open Sys2Proof.Claims

variable {s : State} {len q q' r r' y y' : Nat}

/-! ## The entries -/

theorem tableRows_eq_rows (s : State) : tableRows s = rows s := rfl

theorem rowBase_eq_rowAt (s : State) (y : Nat) : rowBase s y = rowAt s y := rfl

theorem screenTotal_eq_total (s : State) : screenTotal s = total s := rfl

/-- The entry of line `r` of character row `q` (R152). -/
theorem rowBase_line (q : Nat) (hr : r < subRows s) :
    rowBase s (q * subRows s + r) = r * s.params.subrowStride + q * (s.crtcR1.toNat * s.params.bytesPerChar) := by
  have hpos : 0 < subRows s := Nat.succ_pos _
  rw [rowBase, Nat.mul_comm q, Nat.mul_add_mod, Nat.mod_eq_of_lt hr, Nat.mul_add_div hpos, Nat.div_eq_of_lt hr,
    Nat.add_zero, Nat.mul_assoc]

/-- The entry of the first line of a character row (R153b). -/
theorem rowBase_first_line (s : State) (q : Nat) :
    rowBase s (q * subRows s) = q * (s.crtcR1.toNat * s.params.bytesPerChar) := by
  have h := rowBase_line (s := s) q (Nat.succ_pos _)
  rwa [Nat.zero_mul, Nat.zero_add, Nat.add_zero] at h

/-- The entry of the last line of the first character row (R153c). -/
theorem rowBase_last_sub_row (s : State) : rowBase s s.crtcR9.toNat = s.crtcR9.toNat * s.params.subrowStride := by
  have h := rowBase_line (s := s) 0 (Nat.lt_succ_self s.crtcR9.toNat)
  rwa [Nat.zero_mul, Nat.zero_add, Nat.zero_mul, Nat.add_zero] at h

/-- Every image row of the table is a line of a character row (R151). -/
theorem exists_line (h : y < rows s) : ∃ q < s.crtcR6.toNat, ∃ r < subRows s, y = q * subRows s + r := exists_radix h

/-- Within a character row consecutive lines differ by SUBROW_STRIDE (R153b). -/
theorem rowBase_succ (h : y % subRows s < s.crtcR9.toNat) : rowBase s (y + 1) = rowBase s y + s.params.subrowStride := by
  have hr : y % subRows s + 1 < subRows s := Nat.succ_lt_succ h
  rw [← Nat.div_add_mod' y (subRows s), Nat.add_assoc, rowBase_line _ hr, rowBase_line _ (Nat.lt_of_succ_lt hr)]
  ring

/-- The final entry is the largest (R153d). -/
theorem rowBase_le_last (h : y < rows s) : rowBase s y ≤ rowBase s (rows s - 1) := by
  obtain ⟨q, hq, r, hr, rfl⟩ := exists_line h
  rw [rowBase_line q hr, ← tableRows_eq_rows, rowBase_last (Nat.zero_lt_of_lt h), Nat.mul_assoc (s.crtcR6.toNat - 1)]
  exact Nat.add_le_add (Nat.mul_le_mul_right _ (Nat.le_of_lt_succ hr)) (Nat.mul_le_mul_right _ (Nat.le_sub_one_of_lt hq))

/-! ## Rows that do not overlap -/

/-- The two conditions under which rows of `len` bytes do not overlap (R153e). -/
structure RowsApart (s : State) (len : Nat) : Prop where
  characterRows : len ≤ s.crtcR1.toNat * s.params.bytesPerChar
  lines : (s.crtcR6.toNat - 1) * s.crtcR1.toNat * s.params.bytesPerChar + len ≤ s.params.subrowStride

/-- A line ends before every line of a higher sub-row begins, whatever their character rows. -/
theorem RowsApart.lower_line_le (h : RowsApart s len) (hq : q < s.crtcR6.toNat) (hr : r < r') :
    r * s.params.subrowStride + q * (s.crtcR1.toNat * s.params.bytesPerChar) + len ≤
      r' * s.params.subrowStride + q' * (s.crtcR1.toNat * s.params.bytesPerChar) := by
  have hline : q * (s.crtcR1.toNat * s.params.bytesPerChar) + len ≤ s.params.subrowStride := by
    refine (Nat.add_le_add_right ?_ _).trans h.lines
    rw [Nat.mul_assoc]
    exact Nat.mul_le_mul_right _ (Nat.le_sub_one_of_lt hq)
  calc r * s.params.subrowStride + q * (s.crtcR1.toNat * s.params.bytesPerChar) + len
      ≤ r * s.params.subrowStride + s.params.subrowStride := by rw [Nat.add_assoc]; exact Nat.add_le_add_left hline _
    _ = (r + 1) * s.params.subrowStride := (Nat.succ_mul _ _).symm
    _ ≤ r' * s.params.subrowStride := Nat.mul_le_mul_right _ hr
    _ ≤ _ := Nat.le_add_right _ _

/-- A line ends before the same line of every later character row begins. -/
theorem RowsApart.same_line_le (h : RowsApart s len) (hq : q < q') :
    r * s.params.subrowStride + q * (s.crtcR1.toNat * s.params.bytesPerChar) + len ≤
      r * s.params.subrowStride + q' * (s.crtcR1.toNat * s.params.bytesPerChar) := by
  rw [Nat.add_assoc]
  refine Nat.add_le_add_left ?_ _
  calc q * (s.crtcR1.toNat * s.params.bytesPerChar) + len
      ≤ q * (s.crtcR1.toNat * s.params.bytesPerChar) + s.crtcR1.toNat * s.params.bytesPerChar :=
        Nat.add_le_add_left h.characterRows _
    _ = (q + 1) * (s.crtcR1.toNat * s.params.bytesPerChar) := (Nat.succ_mul _ _).symm
    _ ≤ q' * (s.crtcR1.toNat * s.params.bytesPerChar) := Nat.mul_le_mul_right _ hq

/-- Of two rows of the table one ends before the other begins (R153e). -/
theorem RowsApart.disjoint (h : RowsApart s len) (hy : y < rows s) (hy' : y' < rows s) (hne : y ≠ y') :
    rowBase s y + len ≤ rowBase s y' ∨ rowBase s y' + len ≤ rowBase s y := by
  obtain ⟨q, hq, r, hr, rfl⟩ := exists_line hy
  obtain ⟨q', hq', r', hr', rfl⟩ := exists_line hy'
  rw [rowBase_line q hr, rowBase_line q' hr']
  obtain hlt | rfl | hgt := Nat.lt_trichotomy r r'
  · exact .inl (h.lower_line_le hq hlt)
  · obtain hlt | rfl | hgt := Nat.lt_trichotomy q q'
    · exact .inl (h.same_line_le hlt)
    · exact absurd rfl hne
    · exact .inr (h.same_line_le hgt)
  · exact .inr (h.lower_line_le hq' hgt)

/-- A byte of a row is a byte of no other row, and is one column of its own (R153e). -/
theorem RowsApart.row_column_inj {col col' : Nat} (h : RowsApart s len) (hy : y < rows s) (hy' : y' < rows s)
    (hc : col < len) (hc' : col' < len) (heq : rowBase s y + col = rowBase s y' + col') : y = y' ∧ col = col' := by
  have hrow : y = y' := by
    by_contra hne
    have := h.disjoint hy hy' hne
    omega
  subst hrow
  exact ⟨rfl, Nat.add_left_cancel heq⟩

/-! ## ROWADDR and ATSIZE -/

theorem exec_rowaddr (h : y < rows s) : exec (.rowaddr y) s = .next (s.setRes (rowAt s y)) := by
  rw [exec, execRowaddr, tableRows_eq_rows, if_neg (Nat.not_le.2 h), attempt_none, rowBase_eq_rowAt]

theorem raises_rowaddr (h : rows s ≤ y) : Raises (.rowaddr y) s 3 := by
  rw [Raises, exec, execRowaddr, tableRows_eq_rows, if_pos h, attempt_some]
  rfl

theorem exec_atsize (h : 0 < rows s) : exec .atsize s = .next (s.setRes (total s)) := by
  rw [exec, execAtsize, tableRows_eq_rows, if_neg h.ne', attempt_none, screenTotal_eq_total]

theorem raises_atsize (h : rows s = 0) : Raises .atsize s 3 := by
  rw [Raises, exec, execAtsize, tableRows_eq_rows, if_pos h, attempt_some]
  rfl

/-- TOTAL in closed form (R153d, R154). -/
theorem total_eq (h : 0 < rows s) :
    total s = s.crtcR9.toNat * s.params.subrowStride +
      (s.crtcR6.toNat - 1) * s.crtcR1.toNat * s.params.bytesPerChar + 2 * s.crtcR1.toNat :=
  congrArg (· + 2 * s.crtcR1.toNat) (rowBase_last h)

theorem rowaddr_encodes (hy : y < 2 ^ 16) : Encodes (0xB0000000 + y) (.rowaddr y) :=
  encodes_of_wellFormed (by simpa [Instr.WellFormed] using hy)
    (by simp only [Instr.opcode, Instr.modeNumber, Instr.arg]; omega)

/-! ## The timing registers that no command reads -/

/-- CRTC_R0, CRTC_R12 and CRTC_R13 are no input (R156). -/
theorem SameInputs.with_unusedTiming (s : State) (r0 r12 r13 : BitVec 8) :
    SameInputs s { s with crtcR0 := r0, crtcR12 := r12, crtcR13 := r13 } := by
  constructor <;> intros <;> rfl

/-- No write touches CRTC_R0, CRTC_R12 and CRTC_R13, nor depends on them (R156). -/
theorem CommandWrite.apply_with_unusedTiming (w : CommandWrite) (s : State) (r0 r12 r13 : BitVec 8) :
    w.apply { s with crtcR0 := r0, crtcR12 := r12, crtcR13 := r13 } =
      { w.apply s with crtcR0 := r0, crtcR12 := r12, crtcR13 := r13 } := by cases w <;> rfl

end Sys2Proof.Machine
end

section
/-! The command SCREEN (spec/43_screen_address_mapper.md R158 to R164): each check is recorded in its place, the bits of the
buffer are those of the fragments that go there, and without overlap a byte is the pack of its pixels. -/

namespace Sys2Proof.Machine

open Sys2Proof.Claims

variable {s : State} {mf : ModeField} {m : Mode} {a y x col : Nat}

/-! ## The pre-flight -/

/-- What SCREEN leaves when its checks pass (R162). -/
def screenRun (m : Mode) (s : State) : State := s.pack (screenTotal s) (screenWrites m s)

theorem exec_screen (hm : mf.mode = some m) : exec (.screen mf) s = attempt (screenCheck m s) (screenRun m) s :=
  withMode_some hm s _

theorem exec_screen_of_screenOk (hm : mf.mode = some m) (h : ScreenOk m s) :
    exec (.screen mf) s = .next (screenRun m s) := by
  obtain ⟨⟨hwidth, hheight, hrows, hchars⟩, hsource, hbuffer, hindices⟩ := h
  have hnone : screenCheck m s = none :=
    screenCheck_eq_none.2 ⟨hwidth, hheight.ne', hrows, hchars, hsource, hbuffer, hindices⟩
  rw [exec_screen hm, hnone, attempt_none]

/-- A check of SCREEN that fails is recorded and nothing else (R158, R184). -/
theorem raises_screen {f : FaultCode} (hm : mf.mode = some m) (h : screenCheck m s = some f) :
    Raises (.screen mf) s f.code := by
  rw [Raises, exec_screen hm, h]
  rfl

/-- The condition of the first check, as SCREEN tests it, is that the dimensions are outside theirs (R158). -/
theorem not_screenDims_iff :
    ¬ ScreenDims m s ↔
      s.width % m.ppb ≠ 0 ∨ s.height = 0 ∨ tableRows s < s.height ∨ 2 * s.crtcR1.toNat < s.width / m.ppb := by
  simp only [ScreenDims, not_and_or, Nat.not_lt, Nat.le_zero, Nat.not_le]
  rfl

theorem screenCheck_of_dimensions (h : ¬ ScreenDims m s) : screenCheck m s = some .invalidDimensions :=
  if_pos (not_screenDims_iff.1 h)

theorem screenCheck_of_bufferRange (hdims : ScreenDims m s)
    (h : s.params.srcSize < s.width * s.height ∨ s.params.dstSize < total s) : screenCheck m s = some .bufferRange := by
  rw [screenCheck, if_neg (mt not_screenDims_iff.2 (not_not.2 hdims)), screenTotal_eq_total, if_pos h]

theorem screenCheck_of_indices (hdims : ScreenDims m s) (hsrc : s.width * s.height ≤ s.params.srcSize)
    (hbuf : total s ≤ s.params.dstSize) (h : ¬ SourceOk m s) : screenCheck m s = some .outOfRange := by
  rw [screenCheck, if_neg (mt not_screenDims_iff.2 (not_not.2 hdims)), screenTotal_eq_total,
    if_neg (not_or.2 ⟨Nat.not_lt.2 hsrc, Nat.not_lt.2 hbuf⟩), if_neg (mt State.sourceInRange_eq_true.1 h)]

/-- The word of SCREEN in the form of R78. -/
theorem screen_encodes (mf : ModeField) : Encodes (0xD0000000 + mf.number * 2 ^ 26) (.screen mf) :=
  encodes_of_wellFormed rfl (by simp only [Instr.opcode, Instr.modeNumber, Instr.arg]; omega)

/-! ## Where the fragments go -/

/-- The image has a row, and the table one for each. -/
theorem rows_pos_of_screenDims (h : ScreenDims m s) : 0 < rows s := by
  obtain ⟨-, hheight, hrows, -⟩ := h
  exact hheight.trans_le hrows

theorem row_lt_rows (h : ScreenDims m s) (hy : y < s.height) : y < rows s := by
  obtain ⟨-, -, hrows, -⟩ := h
  exact hy.trans_le hrows

/-- Every fragment goes below TOTAL: no entry exceeds the last, and a row is at most `2 × R1` bytes long (R159). -/
theorem screenAddr_lt (h : ScreenDims m s) (hy : y < s.height) (hx : x < s.width) : screenAddr m s y x < total s := by
  have hrow := rowBase_le_last (row_lt_rows h hy)
  obtain ⟨hwidth, -, -, hchars⟩ := h
  exact Nat.add_lt_add_of_le_of_lt hrow ((column_lt hwidth hx).trans_le hchars)

/-- A byte of the buffer is the OR of the fragments that go there (R47, R162). -/
theorem memRead_screenRun (h : a < total s) :
    (screenRun m s).memRead .dst a = Memory.gather (screenWrites m s) a := by
  rw [screenRun, State.memRead_pack, screenTotal_eq_total, if_pos h]

/-- SCREEN changes no byte at or above TOTAL (R164e). -/
theorem memRead_screenRun_of_le (hdims : ScreenDims m s) (h : total s ≤ a) :
    (screenRun m s).memRead .dst a = s.memRead .dst a := by
  have hnone : Memory.gather (screenWrites m s) a = 0 := Memory.gather_eq_zero fun w hw => by
    obtain ⟨y, hy, x, hx, rfl⟩ := mem_screenWrites.1 hw
    exact ((screenAddr_lt hdims hy hx).trans_le h).ne
  rw [screenRun, State.memRead_pack, screenTotal_eq_total, if_neg (Nat.not_lt.2 h), hnone]
  exact BitVec.or_zero

/-- A bit of the buffer is set when it is set in the fragment of a pixel that goes to its byte (R163). -/
theorem testBit_dstByte_screenRun (hsource : SourceOk m s) (h : a < total s) (n : Nat) :
    (dstByte (screenRun m s) a).testBit n = true ↔
      ∃ y < s.height, ∃ x < s.width, rowAt s y + x / m.ppb = a ∧
        (encForm s.params m (x % m.ppb) (srcByte s (y * s.width + x))).testBit n = true := by
  rw [dstByte, memRead_screenRun h, BitVec.testBit_toNat, Memory.getLsbD_gather]
  constructor
  · rintro ⟨w, hw, haddr, hbit⟩
    obtain ⟨y, hy, x, hx, rfl⟩ := mem_screenWrites.1 hw
    refine ⟨y, hy, x, hx, haddr, ?_⟩
    rwa [← toNat_encPixel_eq_encForm (hsource _ (source_lt hy hx)), BitVec.testBit_toNat]
  · rintro ⟨y, hy, x, hx, haddr, hbit⟩
    rw [← toNat_encPixel_eq_encForm (hsource _ (source_lt hy hx)), BitVec.testBit_toNat] at hbit
    exact ⟨_, mem_screenWrites.2 ⟨y, hy, x, hx, rfl⟩, haddr, hbit⟩

/-! ## Rows that do not overlap -/

/-- Where rows do not overlap, a byte of a row is the OR of the fragments of its own pixels (R153e, R163). -/
theorem dstByte_screenRun_of_rowsApart (hdims : ScreenDims m s) (hapart : RowsApart s (bytesPerRow m s))
    (hy : y < s.height) (hc : col < bytesPerRow m s) :
    dstByte (screenRun m s) (rowBase s y + col) =
      orOver m.ppb fun off => (encPixel s.params m (srcByte s (y * s.width + (col * m.ppb + off))) off).toNat := by
  have ⟨hwidth, _, _, hchars⟩ := hdims
  have hlt : rowBase s y + col < total s :=
    Nat.add_lt_add_of_le_of_lt (rowBase_le_last (row_lt_rows hdims hy)) (hc.trans_le hchars)
  rw [dstByte, memRead_screenRun hlt]
  refine toNat_gather_eq_orOver (fun v hv => ?_) fun off hoff => .inr ?_
  · obtain ⟨y', hy', x', hx', h⟩ := mem_screenWrites.1 hv
    obtain ⟨haddr, rfl⟩ := Prod.mk.inj h
    obtain ⟨rfl, rfl⟩ :=
      hapart.row_column_inj (row_lt_rows hdims hy) (row_lt_rows hdims hy') hc (column_lt hwidth hx') haddr
    exact ⟨x' % m.ppb, Nat.mod_lt _ m.ppb_pos, by rw [pixel_split]; rfl⟩
  · refine mem_screenWrites.2 ⟨y, hy, col * m.ppb + off, pixel_lt hc hoff, ?_⟩
    rw [screenAddr, pixel_div hoff, pixel_mod hoff]
    rfl

/-- Where rows do not overlap, DEC of the byte of a pixel at its offset is the source index (R119h, R153e). -/
theorem decPixel_dstByte_screenRun (hp : s.params.Valid) (hok : ScreenOk m s) (hapart : RowsApart s (bytesPerRow m s))
    (hy : y < s.height) (hx : x < s.width) :
    decPixel s.params m (dstByte (screenRun m s) (rowBase s y + x / m.ppb)) (x % m.ppb) = srcByte s (y * s.width + x) := by
  obtain ⟨hdims, -, -, hindices⟩ := hok
  have ⟨hwidth, _⟩ := hdims
  have hcol := column_lt hwidth hx
  have hcolor : ∀ off < m.ppb, srcByte s (y * s.width + (x / m.ppb * m.ppb + off)) ≤ m.maxc :=
    fun off ho => hindices _ (source_lt hy (pixel_lt hcol ho))
  rw [dstByte_screenRun_of_rowsApart hdims hapart hy hcol, decPixel_pack hp hcolor (Nat.mod_lt x m.ppb_pos), pixel_split]

end Sys2Proof.Machine
end

section
/-! The statements about the screen address mapper (spec/43_screen_address_mapper.md) settled. -/

namespace Sys2Proof.Proofs

open Sys2Proof.Machine Sys2Proof.Claims

/-- Settles O43: each byte of the buffer is the OR of the fragments that go there, and none goes elsewhere. -/
theorem screenWritesItsBuffer : Obligations.ScreenWritesItsBuffer := by
  intro s mf m hm hok
  exact ⟨_, (screenRun m s).dst, exec_screen_of_screenOk hm hok, rfl,
    fun a ha => testBit_dstByte_screenRun hok.indices ha, fun a ha => memRead_screenRun_of_le hok.dims ha⟩

/-- Settles O46: the byte is the pack of its pixels, so DEC gives each of them back. -/
theorem screenIsFaithfulWithoutOverlap : Obligations.ScreenIsFaithfulWithoutOverlap := by
  intro s mf m hp hm hok hchars hlines
  refine ⟨_, exec_screen_of_screenOk hm hok, fun y hy x hx => ?_⟩
  rw [exec_dec hm (Nat.mod_lt x m.ppb_pos)]
  exact congrArg (fun c => Host.Outcome.next ((screenRun m s).setRes c))
    (decPixel_dstByte_screenRun hp hok ⟨hchars, hlines⟩ hy hx)

/-- Settles O42: an entry is its line times SUBROW_STRIDE plus its character row times `R1 × BYTES_PER_CHAR`. -/
theorem tableEntriesAndBounds : Obligations.TableEntriesAndBounds := by
  intro s
  refine ⟨?_, fun y => rowBase_succ, fun q => ?_, fun h => ?_, rowBase_last, fun y => rowBase_le_last,
    fun len hchars hlines y hy y' hy' => RowsApart.disjoint ⟨hchars, hlines⟩ hy hy', fun m y x hok hy hx =>
    ⟨screenAddr_lt hok.dims hy hx, source_lt hy hx, hok.source⟩⟩
  · have h := rowBase_first_line s 0
    rwa [Nat.zero_mul, Nat.zero_mul] at h
  · exact (rowBase_first_line s (q + 1)).trans ((Nat.succ_mul _ _).trans
      (congrArg (· + s.crtcR1.toNat * s.params.bytesPerChar) (rowBase_first_line s q).symm))
  · have hfirst := rowBase_first_line s 1
    rw [Nat.one_mul, Nat.one_mul] at hfirst
    exact (hfirst.trans_lt h).trans_eq (rowBase_last_sub_row s).symm

/-- Settles O40: the table entry goes to RES, and the must-be-zero fields of OP 0xB are MODE, RSV and ARG[23:16]. -/
theorem rowaddrGivesTheTableEntry : Obligations.RowaddrGivesTheTableEntry := by
  refine ⟨fun s y => exec_rowaddr, fun s y => raises_rowaddr, fun y => rowaddr_encodes,
    fun w hw hne => illegalWord_of_not_zeroFields hw fun hz => ?_⟩
  simp only [ZeroFields, zeroFields, List.forall_mem_cons, field] at hz
  omega

/-- Settles O41: TOTAL in closed form goes to RES, and every bit of the word below OP must be 0. -/
theorem atsizeGivesTheTotalSize : Obligations.AtsizeGivesTheTotalSize := by
  refine ⟨fun s h => ?_, fun s => raises_atsize, encodes_of_wellFormed rfl rfl,
    fun w hw hne => illegalWord_of_not_zeroFields hw fun hz => hne ?_⟩
  · rw [← total_eq h]
    exact exec_atsize h
  · simp only [ZeroFields, zeroFields, List.forall_mem_cons, field] at hz
    apply BitVec.eq_of_toNat_eq
    change w.toNat = 0xC0000000
    omega

/-- Settles O44: LEN and RES hold TOTAL, which has its closed form when the table has a row. -/
theorem screenReportsTotal : Obligations.ScreenReportsTotal := by
  refine ⟨fun s mf m hm hok hlt => ⟨_, exec_screen_of_screenOk hm hok, ?_⟩,
    fun s hrows hlt => ⟨_, exec_atsize hrows, Nat.mod_eq_of_lt hlt⟩⟩
  rw [← total_eq (rows_pos_of_screenDims hok.dims)]
  exact Nat.mod_eq_of_lt hlt

/-- Settles O45: each check where those before it pass; the must-be-zero fields of OP 0xD are RSV and ARG. -/
theorem screenChecksInOrder : Obligations.ScreenChecksInOrder := by
  intro s mf m
  refine ⟨rfl, fun hm => ⟨fun hdims => raises_screen hm (screenCheck_of_dimensions hdims), fun hdims =>
    ⟨fun hrange => raises_screen hm (screenCheck_of_bufferRange hdims hrange), fun hsrc hbuf hbad =>
      raises_screen hm (screenCheck_of_indices hdims hsrc hbuf hbad)⟩⟩, screen_encodes mf,
    fun w hw hne => illegalWord_of_not_zeroFields hw fun hz => ?_⟩
  simp only [ZeroFields, zeroFields, List.forall_mem_cons, field] at hz
  omega

/-- Settles O52: the three registers are no input, and no write touches them. -/
theorem unusedTimingRegistersHaveNoInfluence : Obligations.UnusedTimingRegistersHaveNoInfluence := by
  intro i s t r0 r12 r13 h
  obtain ⟨w, -, rfl, hexec⟩ := exec_eq_apply h
  rw [hexec _ (.with_unusedTiming s r0 r12 r13), w.apply_with_unusedTiming]

end Sys2Proof.Proofs
end

section
/-! The system command and the host's transactions (spec/44_system.md): the words that are no command, and what a byte of a
space reads as after a write to it. -/

namespace Sys2Proof.Machine

open Sys2Proof.Claims

variable {w : Word} {i : Instr}

/-! ## Words that are no command -/

/-- OP is all of the word above bit 27 (R71). -/
theorem opField_eq_div (w : Word) : opField w = w.toNat / 2 ^ 28 := by
  have := w.isLt
  rw [opField, field]
  omega

/-- A word that decodes matches the row of its OP (R75). -/
theorem exists_row_of_decode (h : decode w = .ok i) : ∃ r ∈ opcodeTable, w &&& r.mask = r.pattern := by
  obtain ⟨hop, hz, -⟩ := decode_eq_ok.1 h
  refine ⟨rowOf (opField w), ?_, (and_mask_eq_pattern hop).2 ⟨rfl, hz⟩⟩
  rw [opcodeTable_eq]
  exact List.mem_map_of_mem (List.mem_range.2 hop)

/-- The one word of OP 0 that decodes is NOP's, since no two words are one command (R77, R170). -/
theorem eq_zero_of_decode (hop : w.toNat / 2 ^ 28 = 0) (h : decode w = .ok i) : w = 0 := by
  obtain ⟨-, -, hi⟩ := decode_eq_ok.1 h
  rw [opField_eq_div, hop] at hi
  obtain rfl : .nop = i := hi
  exact (Proofs.encodeOfDecode w .nop h).2.symm

/-! ## Memory transactions -/

/-- What every byte of a space reads as after a write to that space (R172). -/
theorem memRead_memWrite_space (s : State) (sp : Config.Space) (a b : Nat) (v : Byte) :
    (s.memWrite sp a v).memRead sp b = if b = a then v else s.memRead sp b :=
  (s.memRead_memWrite sp sp a b v).trans (if_congr ⟨fun ⟨_, hab⟩ => hab.symm, fun hba => ⟨rfl, hba.symm⟩⟩ rfl rfl)

end Sys2Proof.Machine
end

section
/-! The statements about the system command and the host's transactions (spec/44_system.md) settled. -/

namespace Sys2Proof.Proofs

open Sys2Proof.Machine Sys2Proof.Claims

/-- Settles O6: a word that decodes matches a row and has one of the fourteen OPs. -/
theorem illegalWordsRaiseIllegalCommand : Obligations.IllegalWordsRaiseIllegalCommand := by
  refine ⟨fun w hrows => illegalWord_of_decode fun i hd => ?_, fun w hop => illegalWord_of_decode fun i hd => ?_⟩
  · obtain ⟨r, hr, hmatch⟩ := exists_row_of_decode hd
    exact hrows r hr hmatch
  · obtain ⟨hlt, -, -⟩ := decode_eq_ok.1 hd
    rw [opField_eq_div] at hlt
    omega

/-- Settles O9: the step is the transaction's own answer, which the bound decides; a read sees the byte last written. -/
theorem hostMemoryTransactions : Obligations.HostMemoryTransactions := by
  refine ⟨fun s a v rest hp ha => ⟨s.src.write a v, ?_, fun b => memRead_memWrite_space s .src a b v⟩,
    fun s a v rest hp ha => ⟨s.dst.write a v, ?_, fun b => memRead_memWrite_space s .dst a b v⟩,
    fun s a rest hp ha => ?_, fun s a rest hp ha => ?_, fun s a v rest ha hp => ?_, fun s a v rest ha hp => ?_⟩
  · exact (step_cons hp).trans (hostMemWrite_eq_next.2 ⟨ha, rfl⟩)
  · exact (step_cons hp).trans (hostMemWrite_eq_next.2 ⟨ha, rfl⟩)
  · exact (step_cons hp).trans (hostMemRead_eq_next.2 ⟨ha, rfl⟩)
  · exact (step_cons hp).trans (hostMemRead_eq_next.2 ⟨ha, rfl⟩)
  · have hout : ({ s with pending := rest } : State).sizeOf .src ≤ a := ha
    obtain hp | hp := hp
    · exact (step_cons hp).trans (hostMemWrite_outside hout v)
    · exact (step_cons hp).trans (hostMemRead_outside hout)
  · have hout : ({ s with pending := rest } : State).sizeOf .dst ≤ a := ha
    obtain hp | hp := hp
    · exact (step_cons hp).trans (hostMemWrite_outside hout v)
    · exact (step_cons hp).trans (hostMemRead_outside hout)

/-- Settles O10: with nothing pending there is nothing to answer. -/
theorem idleKeepsAllState : Obligations.IdleKeepsAllState := fun _ => step_nil

/-- Settles O18: NOP has no check and no write, and 0 is the only word of its OP that decodes. -/
theorem nopChangesNothing : Obligations.NopChangesNothing := by
  refine ⟨fun s => rfl, decodeOfEncode .nop rfl,
    fun w hop hne => illegalWord_of_decode fun i hd => hne (eq_zero_of_decode hop hd), fun s rest hs hp => ?_⟩
  exact (step_command hp).trans (issue_faulted (s := { s with pending := rest }) hs 0)

end Sys2Proof.Proofs
end

section
/-! The invariant of Safety.lean: the shared updates of the state keep it, hence the commands and the transactions do. -/

namespace Sys2Proof.Machine

variable {s t : State}

/-! ## The invariant, operation by operation -/

theorem Inv.raise (h : Inv s) (f : FaultCode) : Inv (s.raise f) := { h with fault := f.code_bounds.2 }

theorem Inv.setRes (h : Inv s) (v : Nat) : Inv (s.setRes v) := { h with }

theorem Inv.reply (h : Inv s) (r : Reply) : Inv (s.reply r) := { h with }

theorem Inv.with_pending (h : Inv s) (rest : List HostTxn) : Inv { s with pending := rest } := { h with }

theorem Inv.resetBlock (h : Inv s) : Inv s.resetBlock where
  params := h.params
  src := h.src
  dst := h.dst
  fault := by simp
  len := by simp
  palFw := by simp

/-- No register the port can write is one the invariant speaks of (R13). -/
theorem Inv.portWrite (h : Inv s) (v : Word) (r : Reg) : Inv (s.portWrite v r) := by
  obtain ⟨hparams, hsrc, hdst, hfault, hlen, hpalFw⟩ := h
  constructor <;> simpa

/-- A host memory write inside its space keeps both memories in canonical form (R173). -/
theorem Inv.memWrite (h : Inv s) {sp : Config.Space} {a : Nat} (ha : a < s.sizeOf sp) (v : Byte) :
    Inv (s.memWrite sp a v) := by
  cases sp with
  | src => exact { h with src := Memory.wf_write h.src ha v }
  | dst => exact { h with dst := Memory.wf_write h.dst ha v }

/-- A firmware index PALCONV writes is the position of an entry, or 0 in an unused slot (R98, R92d). -/
theorem palconvSlot_firmware_lt (s : State) (q : Fin 16) :
    (palconvSlot s (fun found => BitVec.ofNat 8 found.1) q).toNat < 27 := by
  unfold palconvSlot
  split
  · split
    · next found hfound =>
      obtain ⟨hlt, -⟩ := findColor_eq_some hfound
      exact (Nat.mod_le _ _).trans_lt hlt
    · decide
  · decide

theorem Inv.palconvRun (h : Inv s) : Inv (palconvRun s) :=
  { h with palFw := fun q => by simpa using palconvSlot_firmware_lt s q }

/-- A buffer that fits DST, with every fragment inside it, keeps DST in canonical form and LEN at most DST_SIZE (R16, R47). -/
theorem Inv.pack (h : Inv s) {n : Nat} {ws : List (Nat × Byte)} (hn : n ≤ s.params.dstSize) (hws : ∀ w ∈ ws, w.1 < n) :
    Inv (s.pack n ws) :=
  { h with
    dst := Memory.wf_orAll (Memory.wf_clear h.dst hn) fun w hw => (hws w hw).trans_le hn
    len := (Nat.mod_le n (2 ^ 32)).trans hn }

/-! ## The invariant over commands and transactions -/

/-- A sprite that passes its pre-flight fits DST, and its fragments go below its length (R133, R134). -/
theorem Inv.spritePack {m : Mode} {tr : Nat} {io im : Bool} (h : Inv s) (hc : spriteCheck m tr io im s = none) (oobm : Bool) :
    Inv (s.pack (spriteLength m io im s) (spriteWrites m tr oobm io im s)) := by
  obtain ⟨-, hwidth, -, -, hbuffer, -⟩ := spriteCheck_eq_none.1 hc
  exact h.pack hbuffer fun w hw => spriteWrites_lt hwidth hw

/-- A screen that passes its pre-flight fits DST, and its fragments go below TOTAL (R158, R159). -/
theorem Inv.screenPack {m : Mode} (h : Inv s) (hc : screenCheck m s = none) :
    Inv (s.pack (screenTotal s) (screenWrites m s)) := by
  obtain ⟨hwidth, hheight, hrows, hchars, -, hbuffer, -⟩ := screenCheck_eq_none.1 hc
  refine h.pack hbuffer fun w hw => ?_
  obtain ⟨y, hy, x, hx, rfl⟩ := mem_screenWrites.1 hw
  exact screenAddr_lt ⟨hwidth, Nat.pos_of_ne_zero hheight, hrows, hchars⟩ hy hx

theorem Inv.exec {i : Instr} (h : Inv s) (hx : exec i s = .next t) : Inv t := by
  cases exec_effect hx with
  | raised f ht => exact ht ▸ h.raise f
  | result v ht => exact ht ▸ h.setRes v
  | palette _ ht => exact ht ▸ h.palconvRun
  | nothing _ ht => exact ht ▸ h
  | sprite mf m tr oobm io im _ _ hc ht => exact ht ▸ h.spritePack hc oobm
  | screen mf m _ _ hc ht => exact ht ▸ h.screenPack hc

theorem Inv.issue {w : Word} (h : Inv s) (hx : issue w s = .next t) : Inv t := by
  obtain ⟨-, rfl⟩ | ⟨-, -, rfl⟩ | ⟨-, i, -, hi⟩ := issue_eq_next hx
  · exact h
  · exact h.raise .illegalCommand
  · exact h.exec hi

theorem Inv.transact {x : HostTxn} (h : Inv s) (hx : transact x s = .next t) : Inv t := by
  cases x with
  | writeReg n v =>
    obtain ⟨-, hi⟩ | ⟨-, rfl⟩ := hostWriteReg_eq_next.1 hx
    · exact h.issue hi
    · exact h.portWrite v _
  | readReg n => cases hx; exact h.reply _
  | writeSrc a v | writeDst a v =>
    obtain ⟨ha, rfl⟩ := hostMemWrite_eq_next.1 hx
    exact h.memWrite ha v
  | readSrc a | readDst a =>
    obtain ⟨-, rfl⟩ := hostMemRead_eq_next.1 hx
    exact h.reply _
  | reset => cases hx; exact h.resetBlock

end Sys2Proof.Machine
end

section
/-! The fault codes (spec/60_exceptions.md): which ones each check can find (R182), and that a command that records one changes
nothing else (R186). -/

namespace Sys2Proof.Machine

open Sys2Proof.Claims

variable {s t : State} {codes : List (BitVec 4)}

/-! ## What a check can find -/

/-- Every cause the check can find has one of the codes. -/
def FindsAmong (codes : List (BitVec 4)) (c : Option FaultCode) : Prop := ∀ f, c = some f → f.code ∈ codes

theorem FindsAmong.nothing : FindsAmong codes none := nofun

theorem FindsAmong.cause {f : FaultCode} (h : f.code ∈ codes) : FindsAmong codes (some f) := by
  rintro _ ⟨⟩
  exact h

theorem FindsAmong.ite {p : Prop} [Decidable p] {c d : Option FaultCode} (hc : FindsAmong codes c)
    (hd : FindsAmong codes d) : FindsAmong codes (if p then c else d) := by
  split
  · exact hc
  · exact hd

theorem findsAmong_checkOffset (m : Mode) (off : Nat) : FindsAmong [3] (checkOffset m off) :=
  .ite (.cause (by decide)) .nothing

theorem findsAmong_checkOffsetColor (m : Mode) (off c : Nat) : FindsAmong [3] (checkOffsetColor m off c) :=
  .ite (.cause (by decide)) (.ite (.cause (by decide)) .nothing)

theorem findsAmong_palconvCheck (s : State) : FindsAmong [3, 1] (palconvCheck s) :=
  .ite (.cause (by decide)) (.ite .nothing (.cause (by decide)))

/-- The four checks of SPRITE (R134). -/
theorem findsAmong_spriteCheck (m : Mode) (tr : Nat) (io im : Bool) (s : State) :
    FindsAmong [3, 2, 5] (spriteCheck m tr io im s) :=
  .ite (.cause (by decide)) (.ite (.cause (by decide)) (.ite (.cause (by decide)) (.ite .nothing (.cause (by decide)))))

/-- The three checks of SCREEN (R158). -/
theorem findsAmong_screenCheck (m : Mode) (s : State) : FindsAmong [3, 2, 5] (screenCheck m s) :=
  .ite (.cause (by decide)) (.ite (.cause (by decide)) (.ite .nothing (.cause (by decide))))

/-! ## What a command can record -/

/-- `t` follows `s` with the recorded fault as it was, or by raising a cause with one of the codes (R184, R186). -/
def KeepsOrRaises (codes : List (BitVec 4)) (s t : State) : Prop :=
  t.statusFault = s.statusFault ∨ ∃ f : FaultCode, f.code ∈ codes ∧ t = s.raise f

/-- A checked command raises what its check finds (R186). -/
theorem keepsOrRaises_of_attempt {c : Option FaultCode} {run : State → State} (hc : FindsAmong codes c)
    (hrun : (run s).statusFault = s.statusFault) (h : attempt c run s = .next t) : KeepsOrRaises codes s t := by
  obtain ⟨f, hf, rfl⟩ | ⟨-, rfl⟩ := attempt_eq_next.1 h
  · exact .inr ⟨f, hc f hf, rfl⟩
  · exact .inl hrun

/-- A checked command that writes RES. -/
theorem keepsOrRaises_of_result {c : Option FaultCode} {v : State → Nat} (hc : FindsAmong codes c)
    (h : attempt c (fun s => s.setRes (v s)) s = .next t) : KeepsOrRaises codes s t :=
  keepsOrRaises_of_attempt hc (s.setRes_statusFault (v s)) h

/-- A command that takes a mode can raise OutOfRange for MODE = 3 (R76). -/
theorem keepsOrRaises_of_withMode {mf : ModeField} {k : Mode → Host.Outcome State Fault Refusal} (hcode : 3 ∈ codes)
    (hk : ∀ m, k m = .next t → KeepsOrRaises codes s t) (h : withMode mf s k = .next t) : KeepsOrRaises codes s t := by
  obtain ⟨-, rfl⟩ | ⟨m, -, hm⟩ := withMode_eq_next.1 h
  · exact .inr ⟨.outOfRange, hcode, rfl⟩
  · exact hk m hm

/-- A checked command of a mode that writes RES. -/
theorem keepsOrRaises_of_modeResult {mf : ModeField} {c : Mode → Option FaultCode} {v : Mode → State → Nat}
    (hc : ∀ m, FindsAmong [3] (c m))
    (h : withMode mf s (fun m => attempt (c m) (fun s => s.setRes (v m s)) s) = .next t) : KeepsOrRaises [3] s t :=
  keepsOrRaises_of_withMode (by decide) (fun m => keepsOrRaises_of_result (hc m)) h

/-- A lookup by colour can raise ColorNotFound only (R94, R95). -/
theorem keepsOrRaises_of_lookupColor {r g b : Nat} {result : Nat × Config.ColorEntry → Nat}
    (h : lookupColor r g b result s = .next t) : KeepsOrRaises [1] s t := by
  obtain ⟨-, rfl⟩ | ⟨found, -, rfl⟩ := lookupColor_eq_next.1 h
  · exact .inr ⟨.colorNotFound, by decide, rfl⟩
  · exact .inl rfl

/-- Every command keeps the recorded fault or raises a cause of its own list, changing nothing else (R182, R186). -/
theorem exec_keepsOrRaises {i : Instr} (h : exec i s = .next t) : KeepsOrRaises (mayRaise i) s t := by
  cases i with
  | nop => cases h; exact .inl rfl
  | hwcode r g b | fwidx r g b => exact keepsOrRaises_of_lookupColor h
  | rgbof n =>
    simp only [exec, execRgbof] at h
    split at h <;> cases h
    · exact .inl rfl
    · exact .inr ⟨.outOfRange, List.mem_cons_self, rfl⟩
  | palconv => exact keepsOrRaises_of_attempt (findsAmong_palconvCheck s) s.palconvRun_statusFault h
  | enc mf off c => exact keepsOrRaises_of_modeResult (findsAmong_checkOffsetColor · off c) h
  | dec mf off _ | mask mf off | shift mf off => exact keepsOrRaises_of_modeResult (findsAmong_checkOffset · off) h
  | ppb mf => exact keepsOrRaises_of_modeResult (fun _ => .nothing) h
  | sprite mf tr oobm io im =>
    exact keepsOrRaises_of_withMode List.mem_cons_self
      (fun m => keepsOrRaises_of_attempt (findsAmong_spriteCheck m tr io im s) (s.pack_statusFault _ _)) h
  | rowaddr y =>
    exact keepsOrRaises_of_result (v := (rowBase · y)) (.ite (.cause List.mem_cons_self) .nothing) h
  | atsize => exact keepsOrRaises_of_result (.ite (.cause List.mem_cons_self) .nothing) h
  | screen mf =>
    exact keepsOrRaises_of_withMode List.mem_cons_self
      (fun m => keepsOrRaises_of_attempt (findsAmong_screenCheck m s) (s.pack_statusFault _ _)) h

end Sys2Proof.Machine
end

section
/-! The statements about exceptions (spec/60_exceptions.md) settled. -/

namespace Sys2Proof.Proofs

open Sys2Proof.Machine Sys2Proof.Claims

/-- Settles O57: the step is idle or the answer to one transaction, and every answer keeps the invariant. -/
theorem stepKeepsTheInvariant : Obligations.StepKeepsTheInvariant := by
  intro s t h hstep
  obtain ⟨-, rfl⟩ | ⟨x, rest, -, hx⟩ := step_eq_next hstep
  · exact h
  · exact (h.with_pending rest).transact hx

/-- Settles O4: a write to CMD is ignored, and of the other transactions only RESET reaches STATUS.FAULT. -/
theorem stickyFaultIgnoresCommands : Obligations.StickyFaultIgnoresCommands := by
  refine ⟨fun s w rest hs hp => ?_, fun s t hs h => ?_, fun s rest hp => ⟨_, step_cons hp, rfl⟩,
    fun s x rest _ hp hx => ?_⟩
  · exact (step_command hp).trans (issue_faulted (s := { s with pending := rest }) hs w)
  · obtain ⟨-, rfl⟩ | ⟨x, rest, hp, hx⟩ := step_eq_next h
    · exact .inl rfl
    · obtain hk | ⟨rfl, -⟩ | ⟨h0, -⟩ := transact_statusFault hx
      · exact .inl hk
      · exact .inr ⟨rest, hp⟩
      · exact absurd h0 hs
  · obtain ⟨t, ht, -⟩ := legalTransactionsAreAnswered s x rest hp hx
    exact ⟨t, ht⟩

/-- Settles O49: the command keeps the code 0, or its check or its mode raised a code of its list. -/
theorem faultingCommandsChangeOnlyStatus : Obligations.FaultingCommandsChangeOnlyStatus := by
  intro i s t hs h
  obtain hkept | ⟨f, hf, rfl⟩ := exec_keepsOrRaises h
  · exact .inl (hkept.trans hs)
  · exact .inr ⟨rfl, hf⟩

end Sys2Proof.Proofs
end

section
/-! The commands with every register 0 (spec/70_reset_and_hazards.md R204): no palette slot is in use, the address table has no
entry and the image has no row. -/

namespace Sys2Proof.Machine

open Sys2Proof.Claims
open Config (ColorEntry)

variable {s : State}

/-! ## The palette -/

/-- With PAL_COUNT 0 no slot is in use (R18). -/
theorem slotUsed_of_palCount_zero (h : s.palCount = 0) (q : Fin 16) : s.slotUsed q = false := by
  simp [State.slotUsed, h]

/-- With no slot in use there is no triple to find (R98). -/
theorem palconvCheck_of_palCount_zero (h : s.palCount = 0) : palconvCheck s = none := by
  simp [palconvCheck, h, slotUsed_of_palCount_zero h]

/-- A slot that is not in use gets 0 (R98). -/
theorem palconvSlot_of_palCount_zero (h : s.palCount = 0) (value : Nat × ColorEntry → Byte) (q : Fin 16) :
    palconvSlot s value q = 0 := by
  simp [palconvSlot, slotUsed_of_palCount_zero h]

/-- An output array of zeros is what PALCONV writes with no slot in use. -/
theorem ofFn_palconvSlot_eq {v : Vector Byte 16} (h : s.palCount = 0) (hv : ∀ q : Fin 16, v[q] = 0)
    (value : Nat × ColorEntry → Byte) : Vector.ofFn (palconvSlot s value) = v := by
  ext1 q hq
  rw [Vector.getElem_ofFn, palconvSlot_of_palCount_zero h]
  exact (hv ⟨q, hq⟩).symm

/-- The zeros PALCONV writes are there already. -/
theorem palconvRun_of_registersZero (h : RegistersZero s) : palconvRun s = s := by
  rw [palconvRun, ofFn_palconvSlot_eq h.palCount h.palHw, ofFn_palconvSlot_eq h.palCount h.palFw]

theorem exec_palconv_of_registersZero (h : RegistersZero s) : exec .palconv s = .next s := by
  rw [exec_palconv, palconvCheck_of_palCount_zero h.palCount, attempt_none, palconvRun_of_registersZero h]

/-! ## The address table and the image -/

/-- With CRTC_R6 0 the address table has no entry (R151). -/
theorem rows_of_crtcR6_zero (h : s.crtcR6 = 0) : rows s = 0 := by simp [rows, h]

theorem height_of_imgH_zero (h : s.imgH = 0) : s.height = 0 := by simp [State.height, h]

/-- An image without a row is outside the dimensions of SCREEN (R158). -/
theorem not_screenDims_of_imgH_zero (h : s.imgH = 0) (m : Mode) : ¬ ScreenDims m s :=
  not_screenDims_iff.2 (.inr (.inl (height_of_imgH_zero h)))

end Sys2Proof.Machine
end

section
/-! The statement about the reset values (spec/70_reset_and_hazards.md) settled. -/

namespace Sys2Proof.Proofs

open Sys2Proof.Machine Sys2Proof.Claims

/-- Settles O55: PALCONV finds no slot in use, N = 0 is ROWADDR's and ATSIZE's first failing check, and H = 0 is SPRITE's and
SCREEN's. -/
theorem commandsOnResetValues : Obligations.CommandsOnResetValues := by
  intro s h
  have hrows : rows s = 0 := rows_of_crtcR6_zero h.crtcR6
  exact ⟨exec_palconv_of_registersZero h,
    fun y => raises_rowaddr (hrows.trans_le y.zero_le),
    raises_atsize hrows,
    fun _ _ _ _ _ _ hm ht => raises_sprite hm (spriteCheck_of_dimensions ht (.inr (height_of_imgH_zero h.imgH))),
    fun _ m hm => raises_screen hm (screenCheck_of_dimensions (not_screenDims_of_imgH_zero h.imgH m))⟩

end Sys2Proof.Proofs
end
